-- ==== Sys2Proof/Word.lean ====
section
/-! DEFINITION. The widths of SRTC's values (spec/00_scope.md R6, R11): one abbreviation per kind of word. -/

namespace Sys2Proof

/-- An 8-bit value: a GlyphCode as stored in BUF (R83) or a SegmentPattern (R82). -/
abbrev Byte := BitVec 8

/-- The 20-bit ShiftWord (R80); bit 19 is sent first (R60). Also the width of the chip's registers (R35, R36). -/
abbrev ShiftWord := BitVec 20

/-- A millisecond sample, MS_W = 32 (R22, decision D8; log 18). -/
abbrev Millis := BitVec 32

/-- The 34-bit command word on `cmd[33:0]` (R84). -/
abbrev CmdWord := BitVec 34

/-- The level of one line (R27): `true` is 1, `false` is 0; no inversion (decision D9). -/
abbrev Level := Bool

end Sys2Proof
end

