-- ==== Sys2Proof/Syntax.lean ====
section
/-! DEFINITION. The operations of SRTC, one constructor per row of spec/opcode_table.json (spec/30_encoding.md R92). -/

namespace Sys2Proof

/-- The operation map R92. COMPOSE has no encoding and no row; it is `Machine.compose`. -/
inductive Instr where
  /-- RESET, format PIN (R186) -/
  | reset
  /-- NOP, format CMD, op = 00 (R182) -/
  | nop
  /-- TICK, format CMD, op = 01, with the host's millisecond sample (R150) -/
  | tick (now : Millis)
  /-- BUFWR, format CMD, op = 10; an index of 6 or 7 is an operand like any other (R183, R184) -/
  | bufwr (idx : BitVec 3) (code : Byte)
  /-- RSVD3, format CMD, op = 11 (R185) -/
  | rsvd3
  /-- ENC, format ROMADDR (R110) -/
  | enc (code : Byte)
  /-- TRANSMIT, format SHIFTWORD (R130) -/
  | transmit (w : ShiftWord)
  /-- PH.IDLE, format SEQ, code 000 (R129) -/
  | phIdle
  /-- PH.DSET, format SEQ, code 001 (R123) -/
  | phDset
  /-- PH.CKHI, format SEQ, code 010 (R124) -/
  | phCkhi
  /-- PH.CKLO, format SEQ, code 011 (R125) -/
  | phCklo
  /-- PH.LTLO, format SEQ, code 100 (R126) -/
  | phLtlo
  /-- PH.LTHI, format SEQ, code 101 (R127) -/
  | phLthi
deriving DecidableEq, Repr

end Sys2Proof
end

