-- ==== Sys2Proof/Decode.lean ====
section
/-! DEFINITION. The formats of SRTC, the decoder and the encoder (spec/30_encoding.md R84 to R92, spec/opcode_table.json).

An encoding is read in its own format: which of the five formats applies is known from where the bits stand (the reset pin, the
command port, the ROM address, the transport's word, the phase register), not from the bits. -/

namespace Sys2Proof

/-- The five formats of R92's table. -/
inductive Format where
  | pin
  | cmd
  | romaddr
  | shiftword
  | seq
deriving DecidableEq, Repr

/-- The bits of one encoding, in its format and at its width. -/
inductive EncWord where
  /-- the level of `rst` (R87) -/
  | pin (rst : BitVec 1)
  /-- `cmd[33:0]` (R84) -/
  | cmd (w : CmdWord)
  /-- the ROM address (R110) -/
  | romaddr (c : Byte)
  /-- the word handed to the transport (R130) -/
  | shiftword (w : ShiftWord)
  /-- `PH[2:0]` (R86) -/
  | seq (ph : BitVec 3)
deriving DecidableEq, Repr

/-- Why a word is no operation. -/
inductive DecodeError where
  /-- `rst = 0` is no operation (R87) -/
  | resetLow
  /-- phase codes 6 and 7 are unused (R86) -/
  | unusedPhase (code : BitVec 3)
deriving DecidableEq, Repr

/-- The format an encoding stands in. -/
def EncWord.format : EncWord → Format
  | .pin _ => .pin
  | .cmd _ => .cmd
  | .romaddr _ => .romaddr
  | .shiftword _ => .shiftword
  | .seq _ => .seq

/-- The bits of an encoding as a number, bit 0 least significant. -/
def EncWord.bits : EncWord → Nat
  | .pin b => b.toNat
  | .cmd w => w.toNat
  | .romaddr c => c.toNat
  | .shiftword w => w.toNat
  | .seq p => p.toNat

/-! ## Fields of the command word (R84, R85, R88) -/

/-- `cmd[33:32]` -/
def cmdOp (w : CmdWord) : BitVec 2 := w.extractLsb' 32 2

/-- `arg[31:0]`, the sample of TICK -/
def cmdNow (w : CmdWord) : Millis := w.extractLsb' 0 32

/-- `arg[10:8]` of BUFWR -/
def cmdIdx (w : CmdWord) : BitVec 3 := w.extractLsb' 8 3

/-- `arg[7:0]` of BUFWR -/
def cmdCode (w : CmdWord) : Byte := w.extractLsb' 0 8

/-! ## Decoder -/

/-- The command decoder "needs only `rst` and `cmd[33:32]`" (R92); every command word is an operation (R89). -/
def decodeCmd (w : CmdWord) : Instr :=
  if cmdOp w = 0#2 then .nop
  else if cmdOp w = 1#2 then .tick (cmdNow w)
  else if cmdOp w = 2#2 then .bufwr (cmdIdx w) (cmdCode w)
  else .rsvd3

/-- The phase code (R86). -/
def decodeSeq (p : BitVec 3) : Except DecodeError Instr :=
  if p = 0#3 then .ok .phIdle
  else if p = 1#3 then .ok .phDset
  else if p = 2#3 then .ok .phCkhi
  else if p = 3#3 then .ok .phCklo
  else if p = 4#3 then .ok .phLtlo
  else if p = 5#3 then .ok .phLthi
  else .error (.unusedPhase p)

/-- The decoder: total; what is no operation is rejected by name. -/
def decode : EncWord → Except DecodeError Instr
  | .pin b => if b = 1#1 then .ok .reset else .error .resetLow
  | .cmd w => .ok (decodeCmd w)
  | .romaddr c => .ok (.enc c)
  | .shiftword w => .ok (.transmit w)
  | .seq p => decodeSeq p

/-! ## Encoder -/

/-- A command word from its two fields (R84). -/
def mkCmd (op : BitVec 2) (arg : BitVec 32) : CmdWord := op ++ arg

/-- The argument of BUFWR; "an assembler writes zeros" into `arg[31:11]` (R85). -/
def bufwrArg (idx : BitVec 3) (code : Byte) : BitVec 32 := 0#21 ++ (idx ++ code)

/-- The encoder, from the tables R84 to R87 and R92. -/
def encode : Instr → EncWord
  | .reset => .pin 1#1
  | .nop => .cmd (mkCmd 0#2 0#32)
  | .tick now => .cmd (mkCmd 1#2 now)
  | .bufwr idx code => .cmd (mkCmd 2#2 (bufwrArg idx code))
  | .rsvd3 => .cmd (mkCmd 3#2 0#32)
  | .enc c => .romaddr c
  | .transmit w => .shiftword w
  | .phIdle => .seq 0#3
  | .phDset => .seq 1#3
  | .phCkhi => .seq 2#3
  | .phCklo => .seq 3#3
  | .phLtlo => .seq 4#3
  | .phLthi => .seq 5#3

/-! ## The operation map as data -/

/-- One row of spec/opcode_table.json: a word of `format` is the row's when `bits &&& mask = pattern`. -/
structure OpRow where
  mnemonic : String
  format : Format
  mask : Nat
  pattern : Nat
deriving DecidableEq, Repr

/-- The row of an instruction. -/
def Instr.row : Instr → OpRow
  | .reset => ⟨"RESET", .pin, 0x1, 0x1⟩
  | .nop => ⟨"NOP", .cmd, 0x300000000, 0x000000000⟩
  | .tick _ => ⟨"TICK", .cmd, 0x300000000, 0x100000000⟩
  | .bufwr _ _ => ⟨"BUFWR", .cmd, 0x300000000, 0x200000000⟩
  | .rsvd3 => ⟨"RSVD3", .cmd, 0x300000000, 0x300000000⟩
  | .enc _ => ⟨"ENC", .romaddr, 0x00, 0x00⟩
  | .transmit _ => ⟨"TRANSMIT", .shiftword, 0x00000, 0x00000⟩
  | .phIdle => ⟨"PH.IDLE", .seq, 0x7, 0x0⟩
  | .phDset => ⟨"PH.DSET", .seq, 0x7, 0x1⟩
  | .phCkhi => ⟨"PH.CKHI", .seq, 0x7, 0x2⟩
  | .phCklo => ⟨"PH.CKLO", .seq, 0x7, 0x3⟩
  | .phLtlo => ⟨"PH.LTLO", .seq, 0x7, 0x4⟩
  | .phLthi => ⟨"PH.LTHI", .seq, 0x7, 0x5⟩

/-- A word belongs to a row. -/
def OpRow.fits (r : OpRow) (w : EncWord) : Bool :=
  w.format = r.format && (w.bits &&& r.mask) == r.pattern

/-! ## The host's reading of a table word -/

/-- The encoding that `nbits` bits of value `w` are, when only their number says the format. The exact widths of R92 are 1, 3,
8, 20 and 34. A table that counts whole bytes gives 8 to PIN, SEQ and ROMADDR alike: there a value that is a phase code is read
as one and any other value as a ROM address (log 14). A value too wide for its format is none. -/
def tableWord (nbits w : Nat) : Option EncWord :=
  if nbits = 1 then (if w < 2 then some (.pin (BitVec.ofNat 1 w)) else none)
  else if nbits = 3 then (if w < 8 then some (.seq (BitVec.ofNat 3 w)) else none)
  else if nbits = 8 then
    (if w < 6 then some (.seq (BitVec.ofNat 3 w))
     else if w < 256 then some (.romaddr (BitVec.ofNat 8 w)) else none)
  else if nbits = 20 ∨ nbits = 24 then
    (if w < 2 ^ 20 then some (.shiftword (BitVec.ofNat 20 w)) else none)
  else if nbits = 34 ∨ nbits = 40 then
    (if w < 2 ^ 34 then some (.cmd (BitVec.ofNat 34 w)) else none)
  else none

/-- The instruction the decoder reads from a table word. -/
def decodeTableWord (nbits w : Nat) : Option Instr :=
  match tableWord nbits w with
  | none => none
  | some e =>
    match decode e with
    | .ok i => some i
    | .error _ => none

end Sys2Proof
end

