-- ==== Sys2Proof/Config.lean ====
section
/-! DEFINITION. What the build fixes (spec/00_scope.md R6, R7; spec/10_state.md R29) and the free values of what the spec calls
unspecified (R39, U7, U8). The default numbers of R7 stand in Machine/Build.lean. -/

namespace Sys2Proof

/-- TABLE_VARIANT (R7, R113): which of the two tube wiring layouts is built in. -/
inductive TableVariant where
  | a
  | b
deriving DecidableEq, Repr

/-- The configuration record of R29: the open parameters of R7, fixed for a whole run. A segment table is written as the
patterns of its codes from 0 up; what a code beyond the written part reads as is said by `Machine.segTable`. -/
structure Config where
  /-- TABLE_VARIANT -/
  variant : TableVariant
  /-- the table of variant A, patterns of codes 0, 1, 2, … -/
  tableA : List Byte
  /-- the table of variant B -/
  tableB : List Byte
  /-- N_GLYPH: codes from here up are padding -/
  nGlyph : Nat
  /-- BLANK_CODE -/
  blankCode : Byte
  /-- GATE_SEL[0], GATE_SEL[1], GATE_SEL[2] -/
  gateSel : Vector ShiftWord 3
  /-- DECO_G1 -/
  decoG1 : ShiftWord
  /-- DECO_G2 -/
  decoG2 : ShiftWord
  /-- F_CLK_HZ -/
  fClkHz : Nat
  /-- SETTLE_CYCLES: the length of a hold in clock cycles -/
  settleCycles : Nat
deriving DecidableEq, Repr

/-- Free value: the contents of the table of variant B, for which the spec gives no default (R7, decision D1; log 5). -/
opaque Config.freeTableB : List Byte

/-- Free value: what BUF entry `i` holds until it is written, "a draw per entry, fixed until written" (R39, U7; log 1). -/
opaque Config.freeBufByte : Nat → Byte

/-- Free value: the chip's shift register at power-up (R39, U8; log 2). -/
opaque Config.freeXsr : ShiftWord

/-- Free value: the chip's output register at power-up (R39, U8; log 2). -/
opaque Config.freeXout : ShiftWord

end Sys2Proof
end

