-- ==== Sys2Proof/Machine/Build.lean ====
section
/-! DEFINITION. Build-time constants and the segment ROM: the fixed parameters of spec/00_scope.md R6, the defaults of R7, the
default table of spec/40_segment_encoder.md R114, the ROM as a total function (R52, R57, R111), the glyph classes of R83. -/

namespace Sys2Proof.Machine

/-! ## Fixed parameters (R6) -/

/-- T_ADV_MS -/
def tAdvMs : Millis := 5

/-- T_SETTLE_US -/
def tSettleUs : Nat := 25

/-- SUPP_ON -/
def suppOn : Nat := 100

/-- BUF_LEN -/
def bufLen : Nat := 6

/-! ## The segment ROM -/

/-- The table that TABLE_VARIANT names (R113). -/
def builtTable (c : Config) : List Byte :=
  match c.variant with
  | .a => c.tableA
  | .b => c.tableB

/-- SEG_TABLE, total over the byte (R52, R57). A code from N_GLYPH up is padding and reads 0x00 (R111); so does a defined code
for which the table gives no pattern ("trailing blank entries", R8 item 1; log 25). -/
def segTable (c : Config) (code : Byte) : Byte :=
  if code.toNat < c.nGlyph then (builtTable c).getD code.toNat 0x00 else 0x00

/-! ## Defaults (R7, R114), for `State.reset` and vectors; no general claim rests on them (log 3, log 4) -/

/-- REF_A, the default table of variant A (R114): codes 0 to 15, and code 16 the blank. -/
def refA : List Byte :=
  [0x3F, 0x06, 0x5B, 0x4F, 0x66, 0x6D, 0x7D, 0x07,
   0x7F, 0x6F, 0x77, 0x7C, 0x39, 0x5E, 0x79, 0x71,
   0x00]

/-- The build with the defaults of R7. The clock rate and the hold length have no default in the spec: 40000 Hz and 1 cycle are
the model's, and make a hold exactly T_SETTLE_US long (DESIGN CHOICE, log 4). -/
def defaultBuild : Config where
  variant := .a
  tableA := refA
  tableB := Config.freeTableB
  nGlyph := 17
  blankCode := 16
  gateSel := #v[0x10000, 0x20000, 0x40000]
  decoG1 := 0x00080
  decoG2 := 0x08000
  fClkHz := 40000
  settleCycles := 1

/-! ## Glyph classes -/

/-- The classes of R83. -/
inductive Glyph where
  /-- a decimal digit, codes 0 to 9 -/
  | digit (d : Nat)
  /-- a hex digit A to F, codes 10 to 15 -/
  | hexDigit (d : Nat)
  /-- the blank code -/
  | blank
  /-- a status letter, which one is open (R115) -/
  | status
  /-- not a glyph: padding, read as blank -/
  | padding
deriving DecidableEq, Repr

/-- What a code stands for (R83; decision D2 for the digits). -/
def glyphOf (c : Config) (code : Byte) : Glyph :=
  if c.nGlyph ≤ code.toNat then .padding
  else if code.toNat < 10 then .digit code.toNat
  else if code.toNat < 16 then .hexDigit code.toNat
  else if code = c.blankCode then .blank
  else .status

end Sys2Proof.Machine
end

