-- ==== Sys2Proof/Machine/Memory.lean ====
section
/-! DEFINITION. The RefreshBuffer as a memory (spec/10_state.md R33, spec/20_memory.md R50, R54, R56): the entries written since
power-up, as address and byte pairs in one canonical form. -/

namespace Sys2Proof.Machine

/-- BUF: the written entries, by index. -/
abbrev Memory := List Host.Cell

/-- The canonical form: indices strictly rising, and all of them entries of the six (R33). An entry once written stays listed,
whatever its value: the value it had before is not known (log 1). -/
abbrev Memory.wf (m : Memory) : Prop :=
  m.Pairwise (fun x y => x.1 < y.1) ∧ ∀ c ∈ m, c.1 < 6

/-- What an entry that nothing has written reads as: a free value, one per entry (R39, U7; log 1). -/
def Memory.unwritten (i : Nat) : Byte := Config.freeBufByte i

/-- `MemRead(BUF, i, 1)` (R12, R54). -/
def Memory.read : Memory → Nat → Byte
  | [], i => Memory.unwritten i
  | (j, v) :: rest, i => if i = j then v else Memory.read rest i

/-- `MemWrite(BUF, i, 1, v)` (R12, R56). -/
def Memory.write : Memory → Nat → Byte → Memory
  | [], i, v => [(i, v)]
  | (j, u) :: rest, i, v =>
    if i < j then (i, v) :: (j, u) :: rest
    else if i = j then (i, v) :: rest
    else (j, u) :: Memory.write rest i v

end Sys2Proof.Machine
end

