-- ==== Sys2Proof/Machine/State.lean ====
section
/-! DEFINITION. The state of SRTC (spec/10_state.md R20 to R41), of the external chip and of the host's script; the outcomes that are
not a next state; the state right after RESET (R39). -/

namespace Sys2Proof.Machine

/-- PH, by the names of R23; the codes are `phaseCode`. -/
inductive Phase where
  | idle
  | dset
  | ckhi
  | cklo
  | ltlo
  | lthi
deriving DecidableEq, Repr

/-- The three output lines (R27, R50). -/
inductive Line where
  | data
  | sclk
  | latch
deriving DecidableEq, Repr

/-- The events of the history (R12, R13). -/
inductive Event where
  /-- `W(L, b)`, appended by SRTC at every line write, whether or not the level changes -/
  | write (l : Line) (b : Level)
  /-- `H`, one settle interval passed -/
  | hold
  /-- `Shift(b)`, appended by the chip (R62) -/
  | shift (b : Level)
  /-- `Commit(w)`, appended by the chip (R63) -/
  | commit (w : ShiftWord)
deriving DecidableEq, Repr

/-- A read of BUF or of the ROM, for the model's own record of reads (log 13). -/
inductive Access where
  | buf (i : Nat) (v : Byte)
  | rom (code pattern : Byte)
deriving DecidableEq, Repr

/-- What the host does to the ports in one clock cycle (R180): the level of `rst`, the command it presents, if any (`cmd_valid` and
`cmd`), and whether it keeps presenting that command until it is accepted (R181; log 8). -/
structure HostCycle where
  rst : Bool
  cmd : Option CmdWord
  keep : Bool
deriving DecidableEq, Repr

/-- An operation of level INT (R92) requested on its own, outside a TICK (log 12). -/
inductive IntOp where
  | enc (code : Byte)
  | transmit (w : ShiftWord)
deriving DecidableEq, Repr

/-- All the state. Registers whose legal values are a range are typed by that range (R20, U11; log 15). -/
structure State where
  /-- the configuration record (R29), fixed for a whole run -/
  cfg : Config
  /-- GATE (R20) -/
  gate : Fin 3
  /-- SUPP (R21) -/
  supp : Fin 200
  /-- TLAST (R22) -/
  tlast : Millis
  /-- PH (R23) -/
  ph : Phase
  /-- BITI (R24) -/
  biti : Fin 20
  /-- SHW (R25) -/
  shw : ShiftWord
  /-- TNOW (R26) -/
  tnow : Millis
  /-- DATA (R27) -/
  data : Level
  /-- SCLK (R27) -/
  sclk : Level
  /-- LATCH (R27) -/
  latch : Level
  /-- DLY (R28): clock cycles of the running hold that have passed -/
  dly : Nat
  /-- BUF (R33) -/
  buf : Memory
  /-- XSR of the chip (R35) -/
  xsr : ShiftWord
  /-- XOUT of the chip (R36) -/
  xout : ShiftWord
  /-- the event history, oldest first (R13) -/
  history : List Event
  /-- the model's own record of reads; no step reads it (log 13) -/
  reads : List Access
  /-- the host's script, one entry per clock cycle, the current cycle first (log 8) -/
  host : List HostCycle
  /-- the model's own request for an operation of level INT; no step sets it (log 12) -/
  bench : Option IntOp
deriving DecidableEq, Repr

/-- SRTC has no exceptions: "The complete table of exception causes is therefore empty" (R200, R206). No constructor, so no step can
fault (log 24). -/
inductive Fault
deriving DecidableEq, Repr

/-- Why the model gives no next state. -/
inductive Refusal where
  /-- raised by `exec` for an instruction without a meaning; no arm raises it. Safe. -/
  | notModelled (mnemonic : String)
  /-- raised by `step` where the decoder rejects the selected word. Safe; no state reaches it, since every selected word is an
  operation. -/
  | undecodable (e : DecodeError)
deriving DecidableEq, Repr

/-- The state right after RESET, by the table of R39: SRTC's registers as given there, BUF with nothing written, XSR and XOUT free
values (log 1, log 2); the history holds RESET's line writes (R39, V-P1; log 6). The configuration is the default build (R7; log 3),
the host's script is empty (log 9). -/
def State.reset : State where
  cfg := defaultBuild
  gate := 0
  supp := 0
  tlast := 0
  ph := .idle
  biti := 0
  shw := 0
  tnow := 0
  data := false
  sclk := false
  latch := true
  dly := 0
  buf := []
  xsr := Config.freeXsr
  xout := Config.freeXout
  history := [.write .data false, .write .sclk false, .write .latch true]
  reads := []
  host := []
  bench := none

end Sys2Proof.Machine
end

