-- ==== Sys2Proof/Machine/Operands.lean ====
section
/-! DEFINITION. Operand assembly: buffer indices, the ShiftWord, counters, elapsed time, the phase code (spec/30_encoding.md R86, R88;
spec/20_memory.md R51; spec/42_scheduler.md R151 to R161). -/

namespace Sys2Proof.Machine

/-! ## Indices -/

/-- The index of a gate's lower digit (R51). -/
def lowerIndex (g : Fin 3) : Nat := g.val

/-- The index of a gate's upper digit, `GATE + 3` (R51, R161). -/
def upperIndex (g : Fin 3) : Nat := g.val + 3

/-! ## The ShiftWord -/

/-- COMPOSE (R154): the lanes and one gate-select bit, by OR. -/
def compose (c : Config) (lo hi : Byte) (g : Fin 3) : ShiftWord :=
  (hi.setWidth 20 <<< 8) ||| lo.setWidth 20 ||| c.gateSel[g]

/-- Step 4 of an advance (R156): both decorative bits, for every gate, or none. -/
def decorate (c : Config) (on : Bool) (w : ShiftWord) : ShiftWord :=
  if on then w ||| c.decoG1 ||| c.decoG2 else w

/-- The serial bit at index `i` of a word (R60, R88 item 4). -/
def serialBit (w : ShiftWord) (i : Nat) : Level := w.getLsbD i

/-! ## Counters -/

/-- `(GATE + 1) mod 3` (R158). -/
def nextGate (g : Fin 3) : Fin 3 := ⟨(g.val + 1) % 3, Nat.mod_lt _ (by decide)⟩

/-- `(SUPP + 1) mod 200` (R155), the clean modulo of conflict C1. -/
def nextSupp (n : Fin 200) : Fin 200 := ⟨(n.val + 1) % 200, Nat.mod_lt _ (by decide)⟩

/-- `BITI - 1`, taken only when BITI > 0 (R161). -/
def prevBit (b : Fin 20) : Fin 20 := ⟨b.val - 1, Nat.lt_of_le_of_lt (Nat.sub_le _ _) b.isLt⟩

/-- `(now - TLAST) mod 2^32` (R151). -/
def elapsed (now last : Millis) : Millis := now - last

/-! ## Codes and widths of the ranged registers -/

/-- The code of a phase on `PH[2:0]` (R23, R86). -/
def phaseCode : Phase → BitVec 3
  | .idle => 0#3
  | .dset => 1#3
  | .ckhi => 2#3
  | .cklo => 3#3
  | .ltlo => 4#3
  | .lthi => 5#3

/-- `GATE[1:0]` (R20). -/
def State.gateBits (s : State) : BitVec 2 := BitVec.ofNat 2 s.gate.val

/-- `SUPP[7:0]` (R21). -/
def State.suppBits (s : State) : BitVec 8 := BitVec.ofNat 8 s.supp.val

/-- `PH[2:0]` (R23). -/
def State.phBits (s : State) : BitVec 3 := phaseCode s.ph

/-- `BITI[4:0]` (R24). -/
def State.bitiBits (s : State) : BitVec 5 := BitVec.ofNat 5 s.biti.val

/-! ## The two digits of the current gate -/

/-- `BUF[GATE]` -/
def State.lowerCode (s : State) : Byte := s.buf.read (lowerIndex s.gate)

/-- `BUF[GATE + 3]` -/
def State.upperCode (s : State) : Byte := s.buf.read (upperIndex s.gate)

/-- The two BUF reads and two ROM reads of step 1 (R54, R59, R153), for the record of reads. -/
def digitReads (s : State) : List Access :=
  [.buf (lowerIndex s.gate) s.lowerCode, .rom s.lowerCode (segTable s.cfg s.lowerCode),
   .buf (upperIndex s.gate) s.upperCode, .rom s.upperCode (segTable s.cfg s.upperCode)]

end Sys2Proof.Machine
end

