-- ==== Sys2Proof/Machine/Flags.lean ====
section
/-! DEFINITION. The predicates that decide steps (spec/10_state.md R30 to R32, spec/41_transport.md R121) and the output ports
(spec/43_host_interface.md R180). None is stored: the block has no flag register. -/

namespace Sys2Proof.Machine

/-- `BUSY = (PH != IDLE)` (R30). -/
def busy (s : State) : Bool := s.ph != .idle

/-- `due(now)`: the elapsed time has reached the threshold; equality advances (R31, R151, conflict C2). -/
def due (now : Millis) (s : State) : Bool := tAdvMs ≤ elapsed now s.tlast

/-- `deco_on` on a value of SUPP; an advance tests the value after its increment (R32, R156). -/
def decoOn (n : Fin 200) : Bool := n.val < suppOn

/-- "hold done" of R121: with this clock cycle the hold has lasted SETTLE_CYCLES (R28, R128; log 7). -/
def holdDone (s : State) : Bool := s.cfg.settleCycles ≤ s.dly + 1

/-- The output ports of R180. -/
structure PortOut where
  cmdReady : Bool
  serData : Level
  serClk : Level
  serLatch : Level
deriving DecidableEq, Repr

/-- The outputs while the reset pin is at `rst`: `cmd_ready` is `PH = IDLE and rst = 0`, the lines are their registers (R180). -/
def outputs (rst : Bool) (s : State) : PortOut :=
  ⟨!busy s && !rst, s.data, s.sclk, s.latch⟩

end Sys2Proof.Machine
end

