-- ==== Sys2Proof/Machine/Ops.lean ====
section
/-! DEFINITION. The shared operations: line writes with the chip's reaction (spec/20_memory.md R62, R63), the hold, a change of phase,
the start and the whole of a transmission (spec/41_transport.md R122, R130), the two halves of an advance (spec/42_scheduler.md R150),
RESET (spec/43_host_interface.md R186).

There is no operation that takes or returns from an exception: "Trap entry. None exists" (R206), "No return operation" (R207). -/

namespace Sys2Proof.Machine

/-! ## History -/

/-- Append one event (R13). -/
def State.log (e : Event) (s : State) : State := { s with history := s.history ++ [e] }

/-- Append to the record of reads (log 13). -/
def State.noteReads (l : List Access) (s : State) : State := { s with reads := s.reads ++ l }

/-! ## The chip -/

/-- Shift (R62): `XSR <- {XSR[18:0], DATA}`. -/
def chipShift (s : State) : State :=
  State.log (.shift s.data) { s with xsr := BitVec.concat (s.xsr.setWidth 19) s.data }

/-- Commit (R63): `XOUT <- XSR`, all 20 bits at once. -/
def chipCommit (s : State) : State :=
  State.log (.commit s.xsr) { s with xout := s.xsr }

/-! ## Lines and holds -/

/-- `Line(L) <- b` (R12): the register and the event, then the chip's reaction to a rising edge of SCLK or LATCH; a write that finds
the level already there is no edge (R59, R62, R63). -/
def lineWrite (l : Line) (b : Level) (s : State) : State :=
  match l with
  | .data => State.log (.write .data b) { s with data := b }
  | .sclk =>
    let t := State.log (.write .sclk b) { s with sclk := b }
    if b && !s.sclk then chipShift t else t
  | .latch =>
    let t := State.log (.write .latch b) { s with latch := b }
    if b && !s.latch then chipCommit t else t

/-- `Hold()` (R12, R128): the event `H` and nothing else. -/
def hold (s : State) : State := s.log .hold

/-- Enter a phase; its hold starts to count (R28). -/
def enterPhase (p : Phase) (s : State) : State := { s with ph := p, dly := 0 }

/-- One clock cycle of a hold that is not done: DLY counts (R28, R128). -/
def countHold (s : State) : State := { s with dly := s.dly + 1 }

/-! ## A transmission -/

/-- The start of a transmission (R121 row 1, R122). -/
def startTransmission (w : ShiftWord) (now : Millis) (s : State) : State :=
  enterPhase .dset
    (lineWrite .data (serialBit w 19) { s with shw := w, biti := 19, tnow := now })

/-- One bit cell (R81): DATA, hold, SCLK high, hold, SCLK low, hold. -/
def bitCell (w : ShiftWord) (i : Nat) (s : State) : State :=
  hold (lineWrite .sclk false (hold (lineWrite .sclk true (hold (lineWrite .data (serialBit w i) s)))))

/-- The bit cells `n - 1` down to `0` of a word. -/
def bitCells (w : ShiftWord) : Nat → State → State
  | 0, s => s
  | n + 1, s => bitCells w n (bitCell w n s)

/-- The latch cell (R81): LATCH low, hold, LATCH high, hold. -/
def latchCell (s : State) : State :=
  hold (lineWrite .latch true (hold (lineWrite .latch false s)))

/-- TRANSMIT as one step (R130): twenty bit cells from bit 19 down to 0, then the latch cell. BITI and DLY are left as a transmission
leaves them (R24, R28; log 16). -/
def transmitWord (w : ShiftWord) (s : State) : State :=
  { latchCell (bitCells w 20 { s with shw := w }) with biti := 0, dly := 0 }

/-! ## An advance -/

/-- The word of an advance (steps 1 to 4 of R150): the two digits of the old GATE, decorated by the new SUPP. -/
def advanceWord (s : State) : ShiftWord :=
  decorate s.cfg (decoOn (nextSupp s.supp))
    (compose s.cfg (segTable s.cfg s.lowerCode) (segTable s.cfg s.upperCode) s.gate)

/-- What steps 1 to 4 write: SUPP (R155; log 22), and the model's record of the four reads (R54, R59). -/
def beginAdvance (s : State) : State :=
  { s.noteReads (digitReads s) with supp := nextSupp s.supp }

/-- Steps 6 and 7 (R158, R159). -/
def completeAdvance (now : Millis) (s : State) : State :=
  { s with gate := nextGate s.gate, tlast := now }

/-- TICK at the operation level (R9, R150): an advance with its whole transmission as one step; nothing if not due (R152). TNOW is
left as the phases leave it (R26; log 16). -/
def tickAtomic (now : Millis) (s : State) : State :=
  if due now s then
    { completeAdvance now (transmitWord (advanceWord s) (beginAdvance s)) with tnow := now }
  else s

/-! ## RESET -/

/-- RESET (R186): the registers of R39, then the three line writes in the order given there. BUF is not changed. -/
def resetBlock (s : State) : State :=
  lineWrite .latch true (lineWrite .sclk false (lineWrite .data false
    { s with gate := 0, supp := 0, tlast := 0, ph := .idle, biti := 0, shw := 0, tnow := 0, dly := 0 }))

end Sys2Proof.Machine
end

