-- ==== Sys2Proof/Machine/HostCommands.lean ====
section
/-! DEFINITION. RESET, NOP, BUFWR and RSVD3 (spec/43_host_interface.md R182 to R186). A command that is not accepted has no effect
(R181): the port is ready in IDLE only (log 11). -/

namespace Sys2Proof.Machine

open Host (Outcome)

/-- RESET: at any time, in any phase (R186, R187). -/
def execReset (s : State) : Outcome State Fault Refusal := .next (resetBlock s)

/-- NOP: "Reads no state, writes no state, appends no event" (R182). -/
def execNop (s : State) : Outcome State Fault Refusal := .next s

/-- BUFWR (R183): one entry, if the index is one of the six; an index of 6 or 7 writes nothing (R184; log 10). -/
def execBufwr (idx : BitVec 3) (code : Byte) (s : State) : Outcome State Fault Refusal :=
  if busy s then .next s
  else if idx.toNat ≤ 5 then .next { s with buf := s.buf.write idx.toNat code }
  else .next s

/-- RSVD3: "accepted and does nothing, exactly as NOP" (R185; log 10). -/
def execRsvd3 (s : State) : Outcome State Fault Refusal := .next s

end Sys2Proof.Machine
end

