-- ==== Sys2Proof/Machine/Scheduler.lean ====
section
/-! DEFINITION. TICK (spec/42_scheduler.md R150) at the phase level: an accepted TICK that is due composes the word and starts its
transmission (spec/41_transport.md R121, R122); the phases carry it out, and the end of LTHI completes the advance. -/

namespace Sys2Proof.Machine

open Host (Outcome)

/-- TICK: nothing if the port is not ready (R181) or the tick is not due (R152); else steps 1 to 4 and the start of step 5. -/
def execTick (now : Millis) (s : State) : Outcome State Fault Refusal :=
  if busy s then .next s
  else if due now s then .next (startTransmission (advanceWord s) now (beginAdvance s))
  else .next s

end Sys2Proof.Machine
end

