-- ==== Sys2Proof/Machine/SegmentEncoder.lean ====
section
/-! DEFINITION. ENC (spec/40_segment_encoder.md R110): a lookup without state. As an operation of its own it leaves its result in the
model's record of reads and nowhere else (log 13). -/

namespace Sys2Proof.Machine

open Host (Outcome)

/-- ENC: "State written: none"; the pattern returned is SEG_TABLE(c). -/
def execEnc (c : Byte) (s : State) : Outcome State Fault Refusal :=
  .next (s.noteReads [.rom c (segTable s.cfg c)])

end Sys2Proof.Machine
end

