-- ==== Sys2Proof/Machine/Transport.lean ====
section
/-! DEFINITION. TRANSMIT and the six phases (spec/41_transport.md R121 to R130). A phase operation is the exit of its phase, taken when
the hold is done; in another phase it is not selected and does nothing (log 11). -/

namespace Sys2Proof.Machine

open Host (Outcome)

/-- TRANSMIT (R130), as one step; it "starts only from IDLE" (R120). -/
def execTransmit (w : ShiftWord) (s : State) : Outcome State Fault Refusal :=
  if busy s then .next s else .next (transmitWord w s)

/-- PH.IDLE: "emits no event there" (R129). -/
def execPhIdle (s : State) : Outcome State Fault Refusal := .next s

/-- PH.DSET (R121, R123): `H; Line(SCLK) <- 1`, to CKHI. -/
def execPhDset (s : State) : Outcome State Fault Refusal :=
  if s.ph = .dset then .next (enterPhase .ckhi (lineWrite .sclk true (hold s))) else .next s

/-- PH.CKHI (R121, R124): `H; Line(SCLK) <- 0`, to CKLO. -/
def execPhCkhi (s : State) : Outcome State Fault Refusal :=
  if s.ph = .ckhi then .next (enterPhase .cklo (lineWrite .sclk false (hold s))) else .next s

/-- PH.CKLO (R121, R125): the next lower bit, to DSET, while BITI > 0; else `H; Line(LATCH) <- 0`, to LTLO. -/
def execPhCklo (s : State) : Outcome State Fault Refusal :=
  if s.ph = .cklo then
    if 0 < s.biti.val then
      .next (enterPhase .dset
        (lineWrite .data (serialBit s.shw (prevBit s.biti).val) { hold s with biti := prevBit s.biti }))
    else .next (enterPhase .ltlo (lineWrite .latch false (hold s)))
  else .next s

/-- PH.LTLO (R121, R126): `H; Line(LATCH) <- 1`, to LTHI. -/
def execPhLtlo (s : State) : Outcome State Fault Refusal :=
  if s.ph = .ltlo then .next (enterPhase .lthi (lineWrite .latch true (hold s))) else .next s

/-- PH.LTHI (R121, R127): `H`, then steps 6 and 7 of the advance, to IDLE. -/
def execPhLthi (s : State) : Outcome State Fault Refusal :=
  if s.ph = .lthi then .next (enterPhase .idle (completeAdvance s.tnow (hold s))) else .next s

end Sys2Proof.Machine
end

