-- ==== Sys2Proof/Machine/Dispatch.lean ====
section
/-! DEFINITION. One arm per row of spec/opcode_table.json. -/

namespace Sys2Proof.Machine

def exec (i : Instr) (s : State) : Host.Outcome State Fault Refusal :=
  match i with
  | .reset => Sys2Proof.Machine.execReset s
  | .nop => Sys2Proof.Machine.execNop s
  | .tick now => Sys2Proof.Machine.execTick now s
  | .bufwr idx code => Sys2Proof.Machine.execBufwr idx code s
  | .rsvd3 => Sys2Proof.Machine.execRsvd3 s
  | .enc c => Sys2Proof.Machine.execEnc c s
  | .transmit w => Sys2Proof.Machine.execTransmit w s
  | .phIdle => Sys2Proof.Machine.execPhIdle s
  | .phDset => Sys2Proof.Machine.execPhDset s
  | .phCkhi => Sys2Proof.Machine.execPhCkhi s
  | .phCklo => Sys2Proof.Machine.execPhCklo s
  | .phLtlo => Sys2Proof.Machine.execPhLtlo s
  | .phLthi => Sys2Proof.Machine.execPhLthi s

end Sys2Proof.Machine
end

