-- ==== Sys2Proof/Machine/Fetch.lean ====
section
/-! DEFINITION. Which operation a clock cycle carries out, and the host's script (spec/43_host_interface.md R181, R187;
spec/41_transport.md R121, R129). SRTC fetches no program (R10): the reset pin, the accepted command or the phase register selects the
operation, and while a hold runs none is selected. -/

namespace Sys2Proof.Machine

/-- A cycle in which the host does nothing. -/
def HostCycle.quiet : HostCycle := ⟨false, none, false⟩

/-- A cycle with `rst = 1` and no command. -/
def HostCycle.reset : HostCycle := ⟨true, none, false⟩

/-- A command presented in this cycle only. -/
def HostCycle.offer (w : CmdWord) : HostCycle := ⟨false, some w, false⟩

/-- A command the host keeps presented until it is accepted (R181). -/
def HostCycle.present (w : CmdWord) : HostCycle := ⟨false, some w, true⟩

/-- The ports in the current cycle; after the script's end the host is quiet (log 8). -/
def State.pins (s : State) : HostCycle := s.host.headD HostCycle.quiet

/-- The encoding of an operation of level INT. -/
def IntOp.word : IntOp → EncWord
  | .enc c => .romaddr c
  | .transmit w => .shiftword w

/-- In this cycle a presented command would be accepted (R180, R181). The model's own request for an INT operation, while there is
one, takes the idle cycle (log 12). -/
def accepting (s : State) : Bool := !s.pins.rst && !busy s && s.bench.isNone

/-- The encoding that selects this cycle's operation, none while a hold runs. `rst = 1` comes first (R187); outside IDLE the phase
steps when its hold is done (R121); in IDLE a presented command is accepted (R181), and without one the block stays in IDLE (R129). -/
def fetch (s : State) : Option EncWord :=
  if s.pins.rst then some (.pin 1#1)
  else if busy s then (if holdDone s then some (.seq (phaseCode s.ph)) else none)
  else
    match s.bench with
    | some op => some op.word
    | none =>
      match s.pins.cmd with
      | some w => some (.cmd w)
      | none => some (.seq (phaseCode s.ph))

/-- The script after this cycle: a command that the host keeps presented and that was not accepted stays, with `rst` released (R181;
log 8, log 21). -/
def hostAfter (s : State) : List HostCycle :=
  match s.host with
  | [] => []
  | c :: rest =>
    if c.keep && c.cmd.isSome && !accepting s then { c with rst := false } :: rest else rest

/-- The request for an INT operation after this cycle: done when it was the operation selected. -/
def benchAfter (s : State) : Option IntOp :=
  if !s.pins.rst && !busy s then none else s.bench

/-- The state in which this cycle's operation runs: the host's script and the model's request have moved on. -/
def afterFetch (s : State) : State := { s with host := hostAfter s, bench := benchAfter s }

/-- `s` set up so that the next cycle selects exactly `e` (log 9): a command waits in IDLE at the head of the script, RESET is
a cycle with `rst = 1`, a phase is made current with its hold at its last cycle, an INT operation is requested in IDLE. -/
def selectWord (e : EncWord) (s : State) : State :=
  match e with
  | .pin b => { s with host := ⟨b == 1#1, none, false⟩ :: s.host }
  | .cmd w => { s with ph := .idle, bench := none, host := HostCycle.offer w :: s.host }
  | .romaddr c => { s with ph := .idle, bench := some (.enc c), host := HostCycle.quiet :: s.host }
  | .shiftword w => { s with ph := .idle, bench := some (.transmit w), host := HostCycle.quiet :: s.host }
  | .seq p =>
    let t := { s with dly := s.cfg.settleCycles - 1, bench := none, host := HostCycle.quiet :: s.host }
    if p = 1#3 then { t with ph := .dset }
    else if p = 2#3 then { t with ph := .ckhi }
    else if p = 3#3 then { t with ph := .cklo }
    else if p = 4#3 then { t with ph := .ltlo }
    else if p = 5#3 then { t with ph := .lthi }
    else { t with ph := .idle }

end Sys2Proof.Machine
end

