-- ==== Sys2Proof/Machine/Step.lean ====
section
/-! DEFINITION. One step of the machine: one clock cycle (spec/43_host_interface.md R180, R181, R187; log 7). -/

namespace Sys2Proof.Machine

/-- One clock cycle: the operation the cycle selects, or a counted cycle of a hold. -/
def step (s : State) : Host.Outcome State Fault Refusal :=
  match fetch s with
  | none => .next (countHold (afterFetch s))
  | some e =>
    match decode e with
    | .ok i => exec i (afterFetch s)
    | .error r => .refused (.undecodable r)

/-- `s` with the table word `w` of `nbits` bits placed so that the next step runs exactly its instruction. -/
def State.withFetchWord (s : State) (nbits w : Nat) : State :=
  match tableWord nbits w with
  | some e => selectWord e s
  | none => s

end Sys2Proof.Machine
end

