-- ==== Sys2Proof/Machine/Assembler.lean ====
section
/-! DEFINITION. The textual syntax of command programs (spec/30_encoding.md R91): one command per line, fields separated by commas,
`;` starts a comment, numbers decimal or `0x` hex; and a program as the host's script (spec/70_reset_and_hazards.md R247). Spacing and
letter case: log 23. -/

namespace Sys2Proof.Machine

/-- A line of a program, the pseudo-operations among them (R91). -/
inductive AsmLine where
  | nop
  | tick (n : Nat)
  | bufwr (i c : Nat)
  | rsvd3
  | reset
  /-- `.cmd h`, the raw word -/
  | raw (h : Nat)
  | loadbuf (codes : List Nat)
  /-- `TICKS from, step, count` -/
  | ticks (start step count : Nat)
deriving DecidableEq, Repr

/-! ## Meaning of a line -/

/-- A command line as the host's cycle that keeps it presented until it is accepted (R181, R247). -/
def asmCmd (i : Instr) : HostCycle :=
  match encode i with
  | .cmd w => HostCycle.present w
  | .pin _ => HostCycle.reset
  | _ => HostCycle.quiet

/-- `BUFWR i, c`. -/
def asmBufwr (i c : Nat) : HostCycle := asmCmd (.bufwr (BitVec.ofNat 3 i) (BitVec.ofNat 8 c))

/-- `LOADBUF`: `BUFWR k, c0`, `BUFWR k+1, c1`, … in that order (R91). -/
def asmLoadbuf : Nat → List Nat → List HostCycle
  | _, [] => []
  | k, c :: cs => asmBufwr k c :: asmLoadbuf (k + 1) cs

/-- `TICKS from, step, count`, arguments taken modulo 2^32 (R91). -/
def asmTicks (start step : Nat) : Nat → List HostCycle
  | 0 => []
  | n + 1 => asmCmd (.tick (BitVec.ofNat 32 start)) :: asmTicks (start + step) step n

/-- The cycles of a line: one command, `rst = 1` for one cycle, or a pseudo-operation's expansion. -/
def AsmLine.cycles : AsmLine → List HostCycle
  | .nop => [asmCmd .nop]
  | .tick n => [asmCmd (.tick (BitVec.ofNat 32 n))]
  | .bufwr i c => [asmBufwr i c]
  | .rsvd3 => [asmCmd .rsvd3]
  | .reset => [asmCmd .reset]
  | .raw h => [HostCycle.present (BitVec.ofNat 34 h)]
  | .loadbuf codes => asmLoadbuf 0 codes
  | .ticks start step count => asmTicks start step count

/-- The operand ranges of R91's table. -/
def AsmLine.inRange : AsmLine → Bool
  | .nop => true
  | .tick n => n < 2 ^ 32
  | .bufwr i c => i ≤ 7 && c ≤ 255
  | .rsvd3 => true
  | .reset => true
  | .raw h => h < 2 ^ 34
  | .loadbuf codes => codes.length == 6 && codes.all (· ≤ 255)
  | .ticks _ _ _ => true

/-- A program placed at the end of the host's script. -/
def State.load (prog : List AsmLine) (s : State) : State :=
  { s with host := s.host ++ prog.flatMap AsmLine.cycles }

/-! ## Text -/

/-- A blank between fields. -/
def isBlank (c : Char) : Bool := c == ' ' || c == '\t' || c == '\r'

/-- The text without its comment. -/
def stripComment (l : List Char) : List Char := l.takeWhile (· != ';')

/-- The text without blanks at its two ends. -/
def trimBlanks (l : List Char) : List Char :=
  ((l.dropWhile isBlank).reverse.dropWhile isBlank).reverse

/-- The fields between commas. -/
def splitFields : List Char → List (List Char)
  | [] => [[]]
  | c :: cs =>
    if c == ',' then [] :: splitFields cs
    else
      match splitFields cs with
      | [] => [[c]]
      | f :: fs => (c :: f) :: fs

/-- The value of a digit character; `none` if it is none. -/
def digitValue (c : Char) : Option Nat :=
  if '0' ≤ c && c ≤ '9' then some (c.toNat - '0'.toNat)
  else if 'A' ≤ c && c ≤ 'F' then some (c.toNat - 'A'.toNat + 10)
  else if 'a' ≤ c && c ≤ 'f' then some (c.toNat - 'a'.toNat + 10)
  else none

/-- A run of digits in a base; `_` separates digits, as in `0x2_00000304` (R91). -/
def parseDigits (base : Nat) : Nat → List Char → Option Nat
  | acc, [] => some acc
  | acc, c :: cs =>
    if c == '_' then parseDigits base acc cs
    else
      match digitValue c with
      | some d => if d < base then parseDigits base (acc * base + d) cs else none
      | none => none

/-- A number, decimal or `0x` hex. -/
def parseNum : List Char → Option Nat
  | [] => none
  | '0' :: 'x' :: [] => none
  | '0' :: 'x' :: cs => parseDigits 16 0 cs
  | cs => parseDigits 10 0 cs

/-- A code operand: a number, or `'d'` with `d` one of 0-9, A-F, "the code 0 to 15 of that digit" (R91). -/
def parseCode : List Char → Option Nat
  | '\'' :: c :: '\'' :: [] =>
    if '0' ≤ c && c ≤ '9' || 'A' ≤ c && c ≤ 'F' then digitValue c else none
  | cs => parseNum cs

/-- All the operands of a list, or none. -/
def parseAll (f : List Char → Option Nat) : List (List Char) → Option (List Nat)
  | [] => some []
  | x :: xs =>
    match f x, parseAll f xs with
    | some n, some ns => some (n :: ns)
    | _, _ => none

/-- A line from its mnemonic and operand fields. -/
def parseFields (name : List Char) (fields : List (List Char)) : Option AsmLine :=
  if name = "NOP".toList then (if fields = [] then some .nop else none)
  else if name = "RSVD3".toList then (if fields = [] then some .rsvd3 else none)
  else if name = "RESET".toList then (if fields = [] then some .reset else none)
  else if name = "TICK".toList then
    match parseAll parseNum fields with
    | some [n] => some (.tick n)
    | _ => none
  else if name = "BUFWR".toList then
    match fields with
    | [i, c] =>
      match parseNum i, parseCode c with
      | some i, some c => some (.bufwr i c)
      | _, _ => none
    | _ => none
  else if name = ".cmd".toList then
    match parseAll parseNum fields with
    | some [h] => some (.raw h)
    | _ => none
  else if name = "LOADBUF".toList then
    match parseAll parseCode fields with
    | some cs => some (.loadbuf cs)
    | none => none
  else if name = "TICKS".toList then
    match parseAll parseNum fields with
    | some [a, b, n] => some (.ticks a b n)
    | _ => none
  else none

/-- One line: `some none` for a line with nothing but blanks and a comment, `none` for a line that is no program line. -/
def parseLine (l : List Char) : Option (Option AsmLine) :=
  let body := trimBlanks (stripComment l)
  if body = [] then some none
  else
    let name := body.takeWhile (fun c => !isBlank c)
    let rest := trimBlanks (body.dropWhile (fun c => !isBlank c))
    let fields := if rest = [] then [] else (splitFields rest).map trimBlanks
    match parseFields name fields with
    | some a => if a.inRange then some (some a) else none
    | none => none

/-- A program from its lines. -/
def parseProgram : List (List Char) → Option (List AsmLine)
  | [] => some []
  | l :: ls =>
    match parseLine l, parseProgram ls with
    | some (some a), some as => some (a :: as)
    | some none, some as => some as
    | _, _ => none

end Sys2Proof.Machine
end

