-- ==== Sys2Proof/WellFormed.lean ====
section
/-! DEFINITION. Well-formedness: of a configuration (spec/00_scope.md R8), of a command word as an assembler writes it (R85), and
of what a host may send (spec/43_host_interface.md R188). Every term of `Instr` has its operands at their exact widths, so there is
no ill-typed instruction to refuse; a host's breach of duty is defined by the spec and runs. -/

namespace Sys2Proof

/-- Exactly one bit is set. -/
def oneHot (w : ShiftWord) : Bool := (List.range 20).any fun i => w == BitVec.twoPow 20 i

/-- R7, R8 items 1 and 2, R83: N_GLYPH is in its range, the built table has a pattern for every glyph, BLANK_CODE is a glyph, none of
the digits at codes 0 to 15, and dark. That codes from N_GLYPH up read 0x00 is no condition here: `Machine.segTable` has it for every
configuration. -/
def Config.blankOk (c : Config) : Bool :=
  17 ≤ c.nGlyph && c.nGlyph ≤ 256 && c.nGlyph ≤ (Machine.builtTable c).length
    && 16 ≤ c.blankCode.toNat && c.blankCode.toNat < c.nGlyph && Machine.segTable c c.blankCode == 0x00

/-- R8 item 3: each GATE_SEL[g] is one bit, outside bits 15:0, and the three differ. -/
def Config.gatesOk (c : Config) : Bool :=
  oneHot c.gateSel[0] && oneHot c.gateSel[1] && oneHot c.gateSel[2]
    && (c.gateSel[0] &&& 0x0FFFF) == 0 && (c.gateSel[1] &&& 0x0FFFF) == 0 && (c.gateSel[2] &&& 0x0FFFF) == 0
    && c.gateSel[0] != c.gateSel[1] && c.gateSel[0] != c.gateSel[2] && c.gateSel[1] != c.gateSel[2]

/-- R8 item 4: each decorative mask is one bit and no gate-select bit. -/
def Config.decosOk (c : Config) : Bool :=
  oneHot c.decoG1 && oneHot c.decoG2
    && c.decoG1 != c.gateSel[0] && c.decoG1 != c.gateSel[1] && c.decoG1 != c.gateSel[2]
    && c.decoG2 != c.gateSel[0] && c.decoG2 != c.gateSel[1] && c.decoG2 != c.gateSel[2]

/-- R28, R128: a hold is at least one cycle and at least T_SETTLE_US long. -/
def Config.holdOk (c : Config) : Bool :=
  1 ≤ c.settleCycles && Machine.tSettleUs * c.fClkHz ≤ c.settleCycles * 1000000

/-- "Constraints every instantiation of rule R7's parameters must meet" (R8), and the floor of a hold. -/
abbrev Config.Ok (c : Config) : Prop :=
  c.blankOk = true ∧ c.gatesOk = true ∧ c.decosOk = true ∧ c.holdOk = true

/-- A command word with its ignored bits cleared (R85): what an assembler writes. -/
def canonicalCmd (w : CmdWord) : CmdWord :=
  if cmdOp w = 1#2 then w
  else if cmdOp w = 2#2 then w &&& 0x3000007FF#34
  else w &&& 0x300000000#34

/-- The same for any encoding: only command words have ignored bits. -/
def EncWord.canonical : EncWord → EncWord
  | .cmd w => .cmd (canonicalCmd w)
  | e => e

/-- The host's duties of R188 that concern one operation: no reserved op, no index 6 or 7, no code from N_GLYPH up. -/
def Instr.dutiful (c : Config) : Instr → Bool
  | .rsvd3 => false
  | .bufwr idx code => idx.toNat < 6 && code.toNat < c.nGlyph
  | _ => true

end Sys2Proof
end

