-- ==== Sys2Proof/Safety.lean ====
section
/-! DEFINITION. What claims about SRTC are stated in: observations of the event history (spec/00_scope.md R13, R14), the invariants of
spec/10_state.md R38, the length of what is left of a transmission, the end of a run (spec/70_reset_and_hazards.md R247). -/

namespace Sys2Proof.Machine

/-! ## Observations -/

/-- The events SRTC itself appends; the others are the chip's (R13). -/
def Event.bySrtc : Event → Bool
  | .write _ _ => true
  | .hold => true
  | .shift _ => false
  | .commit _ => false

/-- The word of a commit. -/
def Event.committed : Event → Option ShiftWord
  | .commit w => some w
  | _ => none

/-- "the sequence of words committed to XOUT" (R14). -/
def commits (h : List Event) : List ShiftWord := h.filterMap Event.committed

/-- SRTC's own events of a bit cell for the bit `b` (R81, R130). -/
def cellEvents (b : Level) : List Event :=
  [.write .data b, .hold, .write .sclk true, .hold, .write .sclk false, .hold]

/-- The bit cells `n - 1` down to `0`. -/
def bitEvents (w : ShiftWord) : Nat → List Event
  | 0 => []
  | n + 1 => cellEvents (serialBit w n) ++ bitEvents w n

/-- SRTC's own events of the latch cell. -/
def latchEvents : List Event :=
  [.write .latch false, .hold, .write .latch true, .hold]

/-- "Events appended, in order" of R130: SRTC's own events of one transmission. -/
def frameEvents (w : ShiftWord) : List Event := bitEvents w 20 ++ latchEvents

/-- The number of level changes of DATA that a list of events makes, from the level before it (R138). -/
def dataEdges : Level → List Event → Nat
  | _, [] => 0
  | b, .write .data c :: es => (if b = c then 0 else 1) + dataEdges c es
  | b, .write .sclk _ :: es => dataEdges b es
  | b, .write .latch _ :: es => dataEdges b es
  | b, .hold :: es => dataEdges b es
  | b, .shift _ :: es => dataEdges b es
  | b, .commit _ :: es => dataEdges b es

/-- One event's effect on the count of clock edges since the last latch edge. -/
def countShift (n : Nat) : Event → Nat
  | .shift _ => n + 1
  | .commit _ => 0
  | .write _ _ => n
  | .hold => n

/-- The rising SCLK edges since the last rising LATCH edge (R38 item 6). -/
def shiftsSinceCommit (h : List Event) : Nat := h.foldl countShift 0

/-- The first `k` bit cells of a transmission of `w` (bits 19 down to `20 - k`), for R133. -/
def sendCells (w : ShiftWord) : Nat → State → State
  | 0, s => s
  | k + 1, s => bitCell w (19 - k) (sendCells w k s)

/-- Ticks at the operation level, one after another. -/
def runTicks (ts : List Millis) (s : State) : State := ts.foldl (fun s now => tickAtomic now s) s

/-- Every tick of a list is due when its turn comes. -/
def allDue : List Millis → State → Prop
  | [], _ => True
  | now :: ts, s => due now s = true ∧ allDue ts (tickAtomic now s)

/-- `n` clock cycles. -/
def runCycles : Nat → State → Host.Outcome State Fault Refusal
  | 0, s => .next s
  | n + 1, s =>
    match step s with
    | .next t => runCycles n t
    | .fault r => .fault r
    | .refused r => .refused r

/-- Operations carried out one after another. -/
def execAll : List Instr → State → Host.Outcome State Fault Refusal
  | [], s => .next s
  | i :: is, s =>
    match exec i s with
    | .next t => execAll is t
    | .fault r => .fault r
    | .refused r => .refused r

/-! ## Invariants (R38) -/

/-- R38 item 4, the line levels by phase. DATA is `SHW[BITI]` in every phase: in LTLO, LTHI and IDLE, BITI is 0 (R24), and "last bit
sent, or 0 since reset" is `SHW[0]` (R25, R39). -/
structure LinesByPhase (s : State) : Prop where
  data : s.data = serialBit s.shw s.biti.val
  sclk : s.sclk = (s.ph == .ckhi)
  latch : s.latch = (s.ph != .ltlo)
  rest : s.ph = .idle ∨ s.ph = .ltlo ∨ s.ph = .lthi → s.biti = 0

/-- How many bits of SHW the chip has taken in the transmission that runs (R62, R121); 0 in IDLE. -/
def bitsSent (s : State) : Nat :=
  match s.ph with
  | .idle => 0
  | .dset => 19 - s.biti.val
  | .ckhi => 20 - s.biti.val
  | .cklo => 20 - s.biti.val
  | .ltlo => 20
  | .lthi => 20

/-- R133 as a condition on states: XSR ends with the bits sent so far, and once LATCH has risen XOUT is the word. -/
structure ChipHasSentBits (s : State) : Prop where
  xsr : ∀ k, k < bitsSent s → s.xsr.getLsbD k = s.shw.getLsbD (20 - bitsSent s + k)
  xout : s.ph = .lthi → s.xout = s.shw

/-- The number of gate-select bits that are set in a word. -/
def gatesIn (c : Config) (w : ShiftWord) : Nat :=
  (if w &&& c.gateSel[0] = 0 then 0 else 1) + (if w &&& c.gateSel[1] = 0 then 0 else 1)
    + (if w &&& c.gateSel[2] = 0 then 0 else 1)

/-- "at most one gate is ever being written to in a given tick" (R38 item 5), for the word in SHW and for every word committed. -/
structure OneGateAtATime (s : State) : Prop where
  loaded : gatesIn s.cfg s.shw ≤ 1
  committed : ∀ w ∈ commits s.history, gatesIn s.cfg w ≤ 1

/-- DLY counts inside the hold that runs, and is 0 in IDLE (R28). -/
structure HoldCounted (s : State) : Prop where
  below : s.dly < s.cfg.settleCycles
  rest : s.ph = .idle → s.dly = 0

/-- R38 item 6 as a condition on states: the clock edges since the last latch edge are the bits sent in this transmission, and none
once LATCH has risen. -/
def LatchAfterTwenty (s : State) : Prop :=
  shiftsSinceCommit s.history = if s.ph = .lthi then 0 else bitsSent s

/-! ## What is left of a transmission -/

/-- The holds still to end before IDLE (R121): 62 at the start of DSET for bit 19, 0 in IDLE. -/
def holdsLeft (s : State) : Nat :=
  match s.ph with
  | .idle => 0
  | .dset => 3 * s.biti.val + 5
  | .ckhi => 3 * s.biti.val + 4
  | .cklo => 3 * s.biti.val + 3
  | .ltlo => 2
  | .lthi => 1

/-- The clock cycles still to pass before IDLE. -/
def cyclesLeft (s : State) : Nat := holdsLeft s * s.cfg.settleCycles - s.dly

/-- The host's script asserts no reset. -/
def noReset (h : List HostCycle) : Prop := ∀ c ∈ h, c.rst = false

/-- The end of a run (R247): the last command has been accepted and PH is IDLE again. -/
def runEnded (s : State) : Prop := s.host = [] ∧ s.bench = none ∧ s.ph = .idle

end Sys2Proof.Machine
end

