-- ==== Sys2Proof/Certificates/Slice0/Obligations.lean ====
section
/-! DEFINITION. The statements for the provers, by the numbered rules of spec/. -/

open Sys2Proof Sys2Proof.Machine
open Host (Outcome)

/-! ## Encodings -/

/-- R84 to R87, R92: decoding an encoded instruction gives it back, with every operand at every value; and a word that decodes to an
instruction is that instruction's encoding but for the ignored bits (R85). -/
def Obligations.DecodeInvertsEncode : Prop :=
  (∀ i : Instr, decode (encode i) = .ok i) ∧
  (∀ (e : EncWord) (i : Instr), decode e = .ok i → encode i = e.canonical)

/-- R86, R87, R89: the words that are no operation are `rst = 0` and the phase codes 6 and 7, and no other. -/
def Obligations.OnlyThreeWordsAreNoOperation : Prop :=
  ∀ e : EncWord, (∃ r, decode e = .error r) ↔ e = .pin 0#1 ∨ e = .seq 6#3 ∨ e = .seq 7#3

/-- Sanity: words written out from the tables of R84 to R87 and R91. -/
def Obligations.WordsOfTheSpecDecode : Prop :=
  decode (.pin 0b1#1) = .ok .reset ∧
  decode (.cmd 0b0000000000000000000000000000000000#34) = .ok .nop ∧
  decode (.cmd 0b0100000000000000000000000000000101#34) = .ok (.tick 5) ∧
  decode (.cmd 0b1000000000000000000000001100000100#34) = .ok (.bufwr 3 4) ∧
  decode (.cmd 0x2FFFFF804#34) = .ok (.bufwr 0 4) ∧
  decode (.cmd 0b1100000000000000000000000000000000#34) = .ok .rsvd3 ∧
  decode (.romaddr 0b00000011#8) = .ok (.enc 3) ∧
  decode (.shiftword 0b00011100111110111111#20) = .ok (.transmit 0x1CFBF) ∧
  decode (.seq 0b000#3) = .ok .phIdle ∧
  decode (.seq 0b001#3) = .ok .phDset ∧
  decode (.seq 0b010#3) = .ok .phCkhi ∧
  decode (.seq 0b011#3) = .ok .phCklo ∧
  decode (.seq 0b100#3) = .ok .phLtlo ∧
  decode (.seq 0b101#3) = .ok .phLthi

/-- R91: the command word of each line of the textual syntax, as a number; the line is presented until it is accepted. -/
def Obligations.AssemblerWritesTheStatedWords : Prop :=
  AsmLine.nop.cycles = [HostCycle.present 0x000000000#34] ∧
  (∀ n, n < 2 ^ 32 → (AsmLine.tick n).cycles = [HostCycle.present (BitVec.ofNat 34 (0x100000000 + n))]) ∧
  (∀ i c, i < 8 → c < 256 →
    (AsmLine.bufwr i c).cycles = [HostCycle.present (BitVec.ofNat 34 (0x200000000 + i * 0x100 + c))]) ∧
  AsmLine.rsvd3.cycles = [HostCycle.present 0x300000000#34] ∧
  AsmLine.reset.cycles = [HostCycle.reset] ∧
  (∀ h, h < 2 ^ 34 → (AsmLine.raw h).cycles = [HostCycle.present (BitVec.ofNat 34 h)]) ∧
  (∀ c0 c1 c2 c3 c4 c5, (AsmLine.loadbuf [c0, c1, c2, c3, c4, c5]).cycles =
    [AsmLine.bufwr 0 c0, .bufwr 1 c1, .bufwr 2 c2, .bufwr 3 c3, .bufwr 4 c4, .bufwr 5 c5].flatMap AsmLine.cycles) ∧
  (∀ a d n, (AsmLine.ticks a d n).cycles =
    (List.range n).map fun k => HostCycle.present (BitVec.ofNat 34 (0x100000000 + (a + k * d) % 2 ^ 32)))

/-! ## The step -/

/-- A step runs the decoded instruction; around it, only the host's script and the model's request move on (log 8, log 12). While a hold
runs nothing is selected, and DLY counts (log 7). -/
def Obligations.StepRunsTheSelectedOperation : Prop :=
  (∀ s e i, fetch s = some e → decode e = .ok i → step s = exec i (afterFetch s)) ∧
  (∀ s, fetch s = none → step s = .next (countHold (afterFetch s))) ∧
  (∀ s, afterFetch s = { s with host := hostAfter s, bench := benchAfter s })

/-- R181: in IDLE with `rst = 0` a presented command is accepted, and the step is that command carried out. The model's own request for an
INT operation is absent (log 12). -/
def Obligations.ReadyPortAcceptsThePresentedCommand : Prop :=
  ∀ (s : State) (c : HostCycle) (rest : List HostCycle) (w : CmdWord),
    s.host = c :: rest → c.rst = false → c.cmd = some w → s.ph = .idle → s.bench = none →
    step s = exec (decodeCmd w) { s with host := rest }

/-- R181: a command presented while the port is not ready "is not accepted and has no effect": outside IDLE, what the host presents
changes nothing but the host's own script. -/
def Obligations.BusyPortIgnoresCommands : Prop :=
  ∀ (s : State) (h₁ h₂ : List HostCycle),
    busy s = true → noReset (h₁.take 1) → noReset (h₂.take 1) →
    ∃ t : State, step { s with host := h₁ } = .next { t with host := hostAfter { s with host := h₁ } } ∧
      step { s with host := h₂ } = .next { t with host := hostAfter { s with host := h₂ } }

/-- R181: a host that keeps a command presented while the port is not ready still presents it, unchanged, in the next cycle; one that
does not keep it has moved on. That the host's script says which is the model's choice (log 8). -/
def Obligations.KeptCommandWaitsForReady : Prop :=
  ∀ (s : State) (c : HostCycle) (rest : List HostCycle) (w : CmdWord),
    s.host = c :: rest → c.rst = false → c.cmd = some w → busy s = true →
    ∃ t, step s = .next t ∧ t.host = if c.keep then c :: rest else rest

/-- R187: `rst = 1` beats a presented command, which is not accepted, and beats a phase step; with `rst = 0` a command is taken only in
IDLE, where the phase register selects nothing else. -/
def Obligations.ResetBeatsCommandAndPhase : Prop :=
  (∀ s : State, s.pins.rst = true →
    step s = exec .reset (afterFetch s) ∧ accepting s = false ∧ (outputs s.pins.rst s).cmdReady = false) ∧
  (∀ (s : State) (w : CmdWord), fetch s = some (.cmd w) → s.pins.rst = false ∧ s.ph = .idle) ∧
  (∀ (s : State) (p : BitVec 3), fetch s = some (.seq p) → s.pins.rst = false ∧ (s.ph = .idle → s.pins.cmd = none))

/-- R180, R181: `cmd_ready` is 1 exactly in IDLE with `rst = 0`, `ser_data`, `ser_clk` and `ser_latch` are the registers DATA, SCLK and
LATCH, and a presented command is the operation of the cycle exactly if `cmd_ready` is 1. The model's own request for an INT operation,
which would take the cycle, is absent in the last clause (log 12). -/
def Obligations.PortsShowReadyAndTheLineRegisters : Prop :=
  (∀ (rst : Bool) (s : State),
    ((outputs rst s).cmdReady = true ↔ s.ph = .idle ∧ rst = false) ∧
    (outputs rst s).serData = s.data ∧ (outputs rst s).serClk = s.sclk ∧ (outputs rst s).serLatch = s.latch) ∧
  (∀ (s : State) (w : CmdWord), s.bench = none → s.pins.cmd = some w →
    (fetch s = some (.cmd w) ↔ (outputs s.pins.rst s).cmdReady = true))

/-- R200, R206, R216: no operation and no step faults or is refused, in any state. -/
def Obligations.EveryStepAnswersANextState : Prop :=
  (∀ (i : Instr) (s : State), ∃ t, exec i s = .next t) ∧ (∀ s : State, ∃ t, step s = .next t)

/-- R29, R113: the configuration never changes. -/
def Obligations.ConfigurationIsFixed : Prop :=
  ∀ s t : State, step s = .next t → t.cfg = s.cfg

/-! ## RESET and the host's commands -/

/-- R186, R39: RESET in any state. The registers take the values of R39; DATA, SCLK, LATCH are written 0, 0, 1 in that order; the chip
sees a rising edge only if LATCH was 0, and then commits XSR; BUF, XSR, the configuration and the model's own fields stay (log 21). -/
def Obligations.ResetGivesTheStatedValues : Prop :=
  ∀ s : State, exec .reset s = .next
    { s with
      gate := 0, supp := 0, tlast := 0, ph := .idle, biti := 0, shw := 0, tnow := 0, dly := 0
      data := false, sclk := false, latch := true
      xout := if s.latch then s.xout else s.xsr
      history := s.history ++ [.write .data false, .write .sclk false, .write .latch true]
        ++ (if s.latch then [] else [.commit s.xsr]) }

/-- R186 (b), (c): a RESET in the bit cells changes neither XSR nor XOUT; one in LTLO commits the complete word of the cut
transmission; elsewhere it commits nothing. -/
def Obligations.ResetNeverCommitsAPartialWord : Prop :=
  ∀ s t : State, LinesByPhase s → ChipHasSentBits s → exec .reset s = .next t →
    t.xsr = s.xsr ∧
    (s.ph ≠ .ltlo → t.xout = s.xout ∧ commits t.history = commits s.history) ∧
    (s.ph = .ltlo → t.xout = s.shw ∧ commits t.history = commits s.history ++ [s.shw])

/-- R182: op = 00 is NOP whatever the argument, and NOP "writes no state, appends no event". -/
def Obligations.NopChangesNothing : Prop :=
  (∀ w : CmdWord, cmdOp w = 0#2 → decode (.cmd w) = .ok .nop) ∧ (∀ s : State, exec .nop s = .next s)

/-- R185: op = 11 is accepted and does nothing, exactly as NOP. -/
def Obligations.ReservedCommandActsAsNop : Prop :=
  (∀ w : CmdWord, cmdOp w = 3#2 → decode (.cmd w) = .ok .rsvd3) ∧
  (∀ s : State, exec .rsvd3 s = .next s ∧ exec .rsvd3 s = exec .nop s)

/-- R183: BUFWR with an index up to 5, in IDLE: entry `idx` reads `code`, every other entry reads as before, nothing else changes. -/
def Obligations.BufwrWritesOneEntryAndNothingElse : Prop :=
  ∀ (s : State) (idx : BitVec 3) (code : Byte), s.ph = .idle → idx.toNat ≤ 5 →
    ∃ m : Memory, exec (.bufwr idx code) s = .next { s with buf := m } ∧
      m.read idx.toNat = code ∧ (∀ a, a ≠ idx.toNat → m.read a = s.buf.read a)

/-- R184: an index of 6 or 7 writes nothing. -/
def Obligations.BufwrBeyondTheBufferWritesNothing : Prop :=
  ∀ (s : State) (idx : BitVec 3) (code : Byte), idx = 6#3 ∨ idx = 7#3 →
    exec (.bufwr idx code) s = .next s

/-- R33, R183: BUFWR "is the only way BUF changes"; RESET, TICK and every phase leave it. -/
def Obligations.OnlyBufwrChangesBuf : Prop :=
  ∀ (i : Instr) (s t : State), exec i s = .next t → (∀ idx code, i ≠ .bufwr idx code) →
    t.buf = s.buf

/-- The canonical form of BUF (log 1) is kept by every step (R33: six entries; R56). -/
def Obligations.StepKeepsBufWellFormed : Prop :=
  ∀ s t : State, s.buf.wf → step s = .next t → t.buf.wf

/-! ## The segment encoder -/

/-- R110: ENC writes no state of the machine; the pattern it returns, SEG_TABLE(c), is what the model's record of reads shows (log 13). -/
def Obligations.EncReturnsTheTablePattern : Prop :=
  ∀ (s : State) (c : Byte),
    exec (.enc c) s = .next { s with reads := s.reads ++ [.rom c (segTable s.cfg c)] }

/-- R111, R112, R113: a code from N_GLYPH up is dark in every configuration, the blank code in every one that meets R8; a code below
N_GLYPH reads its entry of the table that TABLE_VARIANT names, table A for A and table B for B, or 0x00 where that has none (log 25). -/
def Obligations.PaddingAndBlankAreDark : Prop :=
  (∀ (c : Config) (code : Byte), c.nGlyph ≤ code.toNat → segTable c code = 0x00#8) ∧
  (∀ c : Config, c.Ok → segTable c c.blankCode = 0x00#8 ∧ c.blankCode.toNat < c.nGlyph) ∧
  (∀ (c : Config) (code : Byte), code.toNat < c.nGlyph → c.variant = .a →
    segTable c code = (c.tableA[code.toNat]?).getD 0x00#8) ∧
  (∀ (c : Config) (code : Byte), code.toNat < c.nGlyph → c.variant = .b →
    segTable c code = (c.tableB[code.toNat]?).getD 0x00#8)

/-- R83, R8 item 2: in a configuration that meets R8, codes 0 to 9 are the decimal digits, 10 to 15 the hex digits, BLANK_CODE is one of
16 to N_GLYPH - 1 and is the blank, the others of these are status letters, and the codes from N_GLYPH up are padding. -/
def Obligations.GlyphClassesPartitionTheCodes : Prop :=
  ∀ c : Config, c.Ok →
    (16 ≤ c.blankCode.toNat ∧ c.blankCode.toNat < c.nGlyph ∧ glyphOf c c.blankCode = .blank) ∧
    (∀ code : Byte, code.toNat ≤ 9 → glyphOf c code = .digit code.toNat) ∧
    (∀ code : Byte, 10 ≤ code.toNat → code.toNat ≤ 15 → glyphOf c code = .hexDigit code.toNat) ∧
    (∀ code : Byte, 16 ≤ code.toNat → code.toNat < c.nGlyph → code ≠ c.blankCode → glyphOf c code = .status) ∧
    (∀ code : Byte, c.nGlyph ≤ code.toNat → glyphOf c code = .padding)

/-! ## TICK -/

/-- R151: an accepted TICK advances exactly when the difference of the sample and TLAST, modulo 2^32, is at least 5. -/
def Obligations.TickAdvancesAtTheThreshold : Prop :=
  ∀ (s : State) (now : Millis), s.ph = .idle →
    ∃ t, exec (.tick now) s = .next t ∧
      (t.ph = .dset ↔ 5 ≤ (now.toNat + 2 ^ 32 - s.tlast.toNat) % 2 ^ 32) ∧
      (t.ph ≠ .dset → t = s)

/-- R152: ticks that are not due do nothing at all, however many: no register, no event, no read. -/
def Obligations.TicksNotDueDoNothing : Prop :=
  ∀ (ts : List Millis) (s : State), (∀ now ∈ ts, now - s.tlast < 5#32) →
    execAll (ts.map Instr.tick) s = .next s

/-- R122, R150: the whole effect of a due TICK in IDLE. The word is composed of the two entries of the old GATE, with the old GATE's
select bit, decorated by the new SUPP; SHW, BITI, TNOW are loaded, DATA is written with bit 19, the phase is DSET; two entries and two
patterns are read; everything else stays. That SUPP changes with the start is read from the order of R150 (log 22); the record of reads is the
model's (log 13); that DLY starts at 0 with the phase is the model's choice of how it counts (log 7). -/
def Obligations.DueTickStartsItsTransmission : Prop :=
  ∀ (s : State) (now : Millis), s.ph = .idle → 5#32 ≤ now - s.tlast →
    ∃ (lo hi : Byte) (n : Fin 200) (w : ShiftWord),
      lo = segTable s.cfg (s.buf.read s.gate.val) ∧
      hi = segTable s.cfg (s.buf.read (s.gate.val + 3)) ∧
      n.val = (s.supp.val + 1) % 200 ∧
      w = ((hi.setWidth 20 <<< 8) ||| lo.setWidth 20 ||| s.cfg.gateSel[s.gate])
        ||| (if n.val < 100 then s.cfg.decoG1 ||| s.cfg.decoG2 else 0) ∧
      exec (.tick now) s = .next
        { s with
          supp := n, shw := w, biti := 19, tnow := now, ph := .dset, dly := 0, data := w.getLsbD 19
          history := s.history ++ [.write .data (w.getLsbD 19)]
          reads := s.reads ++
            [.buf s.gate.val (s.buf.read s.gate.val), .rom (s.buf.read s.gate.val) lo,
             .buf (s.gate.val + 3) (s.buf.read (s.gate.val + 3)), .rom (s.buf.read (s.gate.val + 3)) hi] }

/-- R154: COMPOSE is the OR of its three terms; it puts `hi` in bits 15:8 and `lo` in bits 7:0, sets exactly the gate-select bit of gate
`g`, and no other bit of 19:16; OR, XOR and addition agree under the constraints of R8; and the rule's example, for the defaults it
names. -/
def Obligations.ComposePlacesLanesAndOneGateBit : Prop :=
  (∀ (c : Config) (lo hi : Byte) (g : Fin 3),
    compose c lo hi g = (hi.setWidth 20 <<< 8) ||| lo.setWidth 20 ||| c.gateSel[g]) ∧
  (∀ (c : Config) (lo hi : Byte) (g : Fin 3), c.Ok →
    (compose c lo hi g).extractLsb' 8 8 = hi ∧
    (compose c lo hi g).extractLsb' 0 8 = lo ∧
    (compose c lo hi g).extractLsb' 16 4 = (c.gateSel[g]).extractLsb' 16 4 ∧
    (∀ h : Fin 3, compose c lo hi g &&& c.gateSel[h] ≠ 0 ↔ h = g) ∧
    compose c lo hi g = (hi.setWidth 20 <<< 8) ^^^ lo.setWidth 20 ^^^ c.gateSel[g] ∧
    compose c lo hi g = (hi.setWidth 20 <<< 8) + lo.setWidth 20 + c.gateSel[g]) ∧
  compose defaultBuild 0x3F 0x4F 0 = 0x14F3F#20

/-- R156, at the operation level (R9): a due TICK sends its composed word with both decorative bits if SUPP, after its increment, is below
100, and as composed otherwise, whichever gate is active. `DueTickStartsItsTransmission` says the same of the phase level. -/
def Obligations.DecorationFollowsTheNewCounter : Prop :=
  ∀ (s : State) (now : Millis), due now s = true →
    ((tickAtomic now s).supp.val < 100 → (tickAtomic now s).shw =
      compose s.cfg (segTable s.cfg (s.buf.read s.gate.val)) (segTable s.cfg (s.buf.read (s.gate.val + 3))) s.gate
        ||| s.cfg.decoG1 ||| s.cfg.decoG2) ∧
    (100 ≤ (tickAtomic now s).supp.val → (tickAtomic now s).shw =
      compose s.cfg (segTable s.cfg (s.buf.read s.gate.val)) (segTable s.cfg (s.buf.read (s.gate.val + 3))) s.gate)

/-- R155, at the operation level (R9): SUPP goes up by one per advance, from 199 to 0; a tick that is not due leaves it, and so does every
other operation but RESET. `DueTickStartsItsTransmission` says when in a phase-level advance it changes (log 22). -/
def Obligations.SuppCountsAdvancesModulo200 : Prop :=
  (∀ (s : State) (now : Millis), due now s = true →
    (tickAtomic now s).supp.val = if s.supp.val = 199 then 0 else s.supp.val + 1) ∧
  (∀ (s : State) (now : Millis), due now s = false → (tickAtomic now s).supp = s.supp) ∧
  (∀ (i : Instr) (s t : State), (∀ now, i ≠ .tick now) → i ≠ .reset → exec i s = .next t → t.supp = s.supp)

/-- R20 to R27: who writes the scheduler's and the transport's registers and the lines, over all operations. -/
def Obligations.OnlyTheStatedOperationsWriteTheRegisters : Prop :=
  ∀ (i : Instr) (s t : State), exec i s = .next t → i ≠ .reset →
    (i ≠ .phLthi → t.gate = s.gate ∧ t.tlast = s.tlast) ∧
    ((∀ now, i ≠ .tick now) → t.tnow = s.tnow) ∧
    ((∀ now, i ≠ .tick now) → (∀ w, i ≠ .transmit w) → t.shw = s.shw) ∧
    ((∀ now, i ≠ .tick now) → (∀ w, i ≠ .transmit w) → i ≠ .phCklo → t.biti = s.biti ∧ t.data = s.data) ∧
    ((∀ w, i ≠ .transmit w) → i ≠ .phDset → i ≠ .phCkhi → t.sclk = s.sclk) ∧
    ((∀ w, i ≠ .transmit w) → i ≠ .phCklo → i ≠ .phLtlo → t.latch = s.latch)

/-- R122, R129: the block leaves IDLE only by an accepted TICK that is due. -/
def Obligations.OnlyADueTickLeavesIdle : Prop :=
  ∀ s t : State, s.ph = .idle → step s = .next t → t.ph ≠ .idle →
    ∃ (w : CmdWord), s.pins.cmd = some w ∧ s.pins.rst = false ∧ cmdOp w = 1#2 ∧ due (cmdNow w) s = true ∧ t.ph = .dset

/-- R129: in IDLE, with no reset, no command and no request (log 12), a cycle changes nothing but the host's script. -/
def Obligations.IdleStaysIdle : Prop :=
  (∀ s : State, exec .phIdle s = .next s) ∧
  (∀ s : State, s.ph = .idle → s.pins.rst = false → s.pins.cmd = none → s.bench = none →
    step s = .next { s with host := s.host.tail })

/-! ## The phases -/

/-- R123, R124: the exits of DSET and CKHI, whole. The rising edge of SCLK makes the chip take DATA (R62). That DLY starts at 0 with the
next phase is the model's choice of how it counts (log 7). -/
def Obligations.ClockHighAndLowPhases : Prop :=
  (∀ s : State, s.ph = .dset → exec .phDset s = .next
    { s with
      ph := .ckhi, dly := 0, sclk := true
      xsr := if s.sclk then s.xsr else (s.xsr <<< 1) ||| (BitVec.ofBool s.data).setWidth 20
      history := s.history ++ [.hold, .write .sclk true] ++ (if s.sclk then [] else [.shift s.data]) }) ∧
  (∀ s : State, s.ph = .ckhi → exec .phCkhi s = .next
    { s with ph := .cklo, dly := 0, sclk := false, history := s.history ++ [.hold, .write .sclk false] })

/-- R125: the exit of CKLO, whole: the next lower bit while BITI > 0, else LATCH low. That DLY starts at 0 with the next phase is the
model's choice of how it counts (log 7). -/
def Obligations.ClockLowPhaseSendsTheNextBitOrLatches : Prop :=
  (∀ (s : State) (b : Fin 20), s.ph = .cklo → s.biti.val = b.val + 1 → exec .phCklo s = .next
    { s with
      ph := .dset, dly := 0, biti := b, data := s.shw.getLsbD b.val
      history := s.history ++ [.hold, .write .data (s.shw.getLsbD b.val)] }) ∧
  (∀ s : State, s.ph = .cklo → s.biti.val = 0 → exec .phCklo s = .next
    { s with ph := .ltlo, dly := 0, latch := false, history := s.history ++ [.hold, .write .latch false] })

/-- R126, R127, R158, R159: the exits of LTLO and LTHI, whole. The rising edge of LATCH makes the chip commit XSR (R63); the end of LTHI
steps GATE and records the tick's own sample. That DLY is 0 at the start of the next phase is the model's choice of how it counts
(log 7). -/
def Obligations.LatchPhasesCommitAndCompleteTheAdvance : Prop :=
  (∀ s : State, s.ph = .ltlo → exec .phLtlo s = .next
    { s with
      ph := .lthi, dly := 0, latch := true
      xout := if s.latch then s.xout else s.xsr
      history := s.history ++ [.hold, .write .latch true] ++ (if s.latch then [] else [.commit s.xsr]) }) ∧
  (∀ s : State, s.ph = .lthi → ∃ g : Fin 3, g.val = (if s.gate.val = 2 then 0 else s.gate.val + 1) ∧
    exec .phLthi s = .next
      { s with ph := .idle, dly := 0, gate := g, tlast := s.tnow, history := s.history ++ [.hold] })

/-- R128: while a hold is not done, a cycle without reset writes nothing but DLY (and the host's script moves on). How DLY counts is the
model's (log 7). -/
def Obligations.HoldWritesNothingButItsCounter : Prop :=
  ∀ s : State, busy s = true → s.pins.rst = false → s.dly + 1 < s.cfg.settleCycles →
    step s = .next { s with dly := s.dly + 1, host := hostAfter s }

/-- An operation whose selecting condition does not hold (a command or a TRANSMIT while the port is not ready; a phase operation in another
phase) has no effect. That `exec` is defined there at all is the model's choice (log 11); no step reaches it, by
`StepRunsTheSelectedOperation` and R181. -/
def Obligations.UnselectedOperationsHaveNoEffect : Prop :=
  (∀ (s : State) (now : Millis) (idx : BitVec 3) (code : Byte) (w : ShiftWord), busy s = true →
    exec (.tick now) s = .next s ∧ exec (.bufwr idx code) s = .next s ∧ exec (.transmit w) s = .next s) ∧
  (∀ s : State,
    (s.ph ≠ .dset → exec .phDset s = .next s) ∧ (s.ph ≠ .ckhi → exec .phCkhi s = .next s) ∧
    (s.ph ≠ .cklo → exec .phCklo s = .next s) ∧ (s.ph ≠ .ltlo → exec .phLtlo s = .next s) ∧
    (s.ph ≠ .lthi → exec .phLthi s = .next s))

/-- R62, R125: DATA "does not change from before the rising clock edge until one hold after the falling edge": a step from DSET or
CKHI leaves it, and one from CKLO leaves it while the hold runs. -/
def Obligations.DataIsStableAroundTheClockPulse : Prop :=
  ∀ s t : State, s.pins.rst = false → step s = .next t →
    (s.ph = .dset ∨ s.ph = .ckhi ∨ (s.ph = .cklo ∧ holdDone s = false)) → t.data = s.data

/-! ## The transmission -/

/-- R130: TRANSMIT from IDLE. SRTC's own events are exactly those of the rule, in order; SHW, DATA, SCLK, LATCH end as stated; the chip's
registers apart, nothing else changes but BITI and DLY, which are 0 (log 16). -/
def Obligations.TransmitSendsTheStatedFrame : Prop :=
  ∀ (s : State) (w : ShiftWord), s.ph = .idle →
    ∃ (l : List Event) (x y : ShiftWord),
      l.filter Event.bySrtc = frameEvents w ∧
      exec (.transmit w) s = .next
        { s with
          shw := w, data := w.getLsbD 0, sclk := false, latch := true, biti := 0, dly := 0
          xsr := x, xout := y, history := s.history ++ l }

/-- R131: a transmission of any word from the resting lines of R38 item 4: SRTC's own events are those of the frame (20 bit-shift pulses,
then the latch pulse, R13); 20 writes of DATA, 40 of SCLK, 2 of LATCH (down, then up), 62 writes and 62 holds; 20 rising edges of SCLK
and one commit; and no write of LATCH before the last write of SCLK. -/
def Obligations.TransmissionCountsDoNotDependOnTheWord : Prop :=
  ∀ (s : State) (w : ShiftWord), s.ph = .idle → s.sclk = false → s.latch = true →
    ∃ (t : State) (l : List Event), exec (.transmit w) s = .next t ∧ t.history = s.history ++ l ∧
      l.filter Event.bySrtc = frameEvents w ∧
      l.countP (fun e => e == .write .data true || e == .write .data false) = 20 ∧
      l.countP (fun e => e == .write .sclk true || e == .write .sclk false) = 40 ∧
      l.filter (fun e => e == .write .latch true || e == .write .latch false) = [.write .latch false, .write .latch true] ∧
      l.countP (fun e => e == .hold) = 62 ∧
      l.countP (fun e => e == .shift true || e == .shift false) = 20 ∧
      (commits l).length = 1 ∧
      (∀ (i j : Nat) (bi bj : Level), l[i]? = some (Event.write .latch bi) → l[j]? = some (Event.write .sclk bj) → j < i)

/-- R64, R63: whatever the chip held, after a transmission of `w` XSR and XOUT are `w`, and `w` is the one word committed. -/
def Obligations.TransmissionLeavesTheWordInTheChip : Prop :=
  ∀ (s : State) (w : ShiftWord), s.ph = .idle → s.sclk = false →
    ∃ t, exec (.transmit w) s = .next t ∧ t.xsr = w ∧ t.xout = w ∧
      commits t.history = commits s.history ++ [w]

/-- R133: after `k` bit cells the low `k` bits of XSR are the top `k` bits of the word, and XOUT has not changed; the latch cell after
the twentieth commits the word. -/
def Obligations.BitCellsFillTheChipFromTheTop : Prop :=
  ∀ (s : State) (w : ShiftWord) (k : Nat), s.sclk = false → k ≤ 20 →
    (∀ j, j < k → (sendCells w k s).xsr.getLsbD j = w.getLsbD (20 - k + j)) ∧
    (sendCells w k s).xout = s.xout ∧
    (k = 20 → (sendCells w k s).xsr = w ∧ (latchCell (sendCells w k s)).xout = w)

/-- R138: TRANSMIT of `w` from IDLE makes one edge of the DATA line for each `i` in 18 down to 0 with `w[i] ≠ w[i+1]`, and one at the
first cell if `w[19]` differs from the level of DATA before it; it writes DATA twenty times all the same. -/
def Obligations.DataEdgesAreTheBitChanges : Prop :=
  ∀ (s : State) (w : ShiftWord), s.ph = .idle →
    ∃ (t : State) (l : List Event), exec (.transmit w) s = .next t ∧ t.history = s.history ++ l ∧
      dataEdges s.data l =
        (if s.data = w.getLsbD 19 then 0 else 1)
          + ((List.range 19).filter fun i => w.getLsbD i != w.getLsbD (i + 1)).length ∧
      l.countP (fun e => e == .write .data true || e == .write .data false) = 20

/-- R62: XSR changes only by a rising edge of SCLK, which shifts DATA into bit 0 (no INT request pending). -/
def Obligations.ChipShiftsOnlyOnRisingClock : Prop :=
  ∀ s t : State, s.bench = none → step s = .next t →
    (t.xsr = s.xsr ∨ (s.sclk = false ∧ t.sclk = true ∧ t.data = s.data ∧
      t.xsr = (s.xsr <<< 1) ||| (BitVec.ofBool s.data).setWidth 20))

/-- R36, R63: XOUT changes only by a rising edge of LATCH, which takes all of XSR (no INT request pending). -/
def Obligations.DisplayChangesOnlyOnRisingLatch : Prop :=
  ∀ s t : State, s.bench = none → step s = .next t →
    (t.xout = s.xout ∧ commits t.history = commits s.history) ∨
      (s.latch = false ∧ t.latch = true ∧ t.xout = s.xsr ∧ commits t.history = commits s.history ++ [s.xsr])

/-- R9, R135: the two levels agree. A due TICK accepted in a resting IDLE, then `62 * SETTLE_CYCLES` cycles without reset, whatever the host
presents meanwhile, end in the very state that TICK gives as one step, but for what is left of the host's script. The count of cycles is the
model's reading of a hold (log 7); BITI, DLY and TNOW after the one step are log 16. -/
def Obligations.PhasesCarryOutTheAtomicTick : Prop :=
  ∀ (s : State) (c : HostCycle) (rest : List HostCycle) (now : Millis),
    1 ≤ s.cfg.settleCycles → LinesByPhase s → s.ph = .idle → s.bench = none →
    s.host = c :: rest → c.rst = false → c.cmd = some (mkCmd 1#2 now) → noReset rest → due now s = true →
    ∃ h : List HostCycle,
      runCycles (1 + 62 * s.cfg.settleCycles) s = .next { tickAtomic now s with host := h }

/-- R134, R216: once started, a transmission reaches IDLE after exactly the cycles left of its 62 holds, if no reset comes, and not before;
a due TICK starts it with all 62. The count of cycles in a hold is the model's (log 7). -/
def Obligations.EveryTransmissionEndsInSixtyTwoHolds : Prop :=
  (∀ (s : State) (k : Nat), HoldCounted s → noReset s.host → k ≤ cyclesLeft s → s.ph ≠ .idle →
    ∃ t, runCycles k s = .next t ∧ (t.ph = .idle ↔ k = cyclesLeft s)) ∧
  (∀ (s t : State) (now : Millis), s.ph = .idle → due now s = true → exec (.tick now) s = .next t →
    cyclesLeft t = 62 * s.cfg.settleCycles)

/-- R216, R247: whatever finite script the host plays (log 8), resets included, and in whatever phase the block stands, after some number of
cycles the script is over and PH is IDLE again. `HoldCounted` speaks of the model's way of counting a hold (log 7). -/
def Obligations.EveryScriptEndsInIdle : Prop :=
  ∀ s : State, HoldCounted s → ∃ (n : Nat) (t : State), runCycles n s = .next t ∧ runEnded t

/-! ## Invariants of every step -/

/-- R38 item 4: every step, RESET included, keeps the line levels by phase. -/
def Obligations.StepKeepsLinesByPhase : Prop :=
  ∀ s t : State, LinesByPhase s → step s = .next t → LinesByPhase t

/-- R133 as an invariant: every step keeps that the chip holds the bits sent so far, also across RESET. -/
def Obligations.StepKeepsSentBitsInTheChip : Prop :=
  ∀ s t : State, LinesByPhase s → ChipHasSentBits s → step s = .next t → ChipHasSentBits t

/-- R38 item 5, R186: with the constraints of R8, no word loaded and no word ever committed to the display selects more than one gate, across
RESET too. The INT request is absent: TRANSMIT of an arbitrary word on its own is not a tick. -/
def Obligations.StepKeepsOneGateAtATime : Prop :=
  ∀ s t : State, s.cfg.Ok → s.bench = none → LinesByPhase s → ChipHasSentBits s → OneGateAtATime s →
    step s = .next t → OneGateAtATime t ∧ t.bench = none

/-- R28: every step keeps DLY inside its hold, and at 0 in IDLE (log 7). -/
def Obligations.StepKeepsTheHoldCounter : Prop :=
  ∀ s t : State, HoldCounted s → step s = .next t → HoldCounted t

/-- R38 item 6, R246: running without RESET, every step keeps the count of clock edges since the last latch edge equal to the bits sent; and
a commit comes only when that count is 20. -/
def Obligations.LatchFollowsExactlyTwentyClocks : Prop :=
  (∀ s t : State, s.pins.rst = false → LinesByPhase s → LatchAfterTwenty s → step s = .next t → LatchAfterTwenty t) ∧
  (∀ s t : State, s.pins.rst = false → s.bench = none → LinesByPhase s → LatchAfterTwenty s → step s = .next t →
    commits t.history ≠ commits s.history → shiftsSinceCommit s.history = 20)

/-- R39: the state right after RESET has the stated values and meets every invariant. The configuration in it is the default of R7 (log 3
and log 4) and is used only to show that R8 can be met; the history in it is log 6. -/
def Obligations.ResetStateMeetsTheInvariants : Prop :=
  State.reset.gate = 0 ∧ State.reset.supp = 0 ∧ State.reset.tlast = 0 ∧ State.reset.ph = .idle ∧ State.reset.biti = 0 ∧
  State.reset.shw = 0 ∧ State.reset.tnow = 0 ∧ State.reset.dly = 0 ∧
  State.reset.data = false ∧ State.reset.sclk = false ∧ State.reset.latch = true ∧
  State.reset.cfg.Ok ∧ State.reset.buf.wf ∧ LinesByPhase State.reset ∧ ChipHasSentBits State.reset ∧
  OneGateAtATime State.reset ∧ HoldCounted State.reset ∧ LatchAfterTwenty State.reset

/-! ## Sequences of advances -/

/-- R155, R158, R162, R163: each due tick makes exactly one advance: after any list of due ticks GATE and SUPP have moved by its length,
TLAST is the last sample, and as many words were committed. -/
def Obligations.EachDueTickMakesOneAdvance : Prop :=
  ∀ (ts : List Millis) (s : State), allDue ts s →
    (runTicks ts s).gate.val = (s.gate.val + ts.length) % 3 ∧
    (runTicks ts s).supp.val = (s.supp.val + ts.length) % 200 ∧
    (runTicks ts s).tlast = ts.getLastD s.tlast ∧
    (commits (runTicks ts s).history).length = (commits s.history).length + ts.length

/-- R164, R165, R166: counting advances from GATE = 0 and SUPP = 0 as 1, 2, 3, …, advance `k` shows the digits of gate `(k - 1) mod 3` with
that gate's bit, and the decorations exactly when `k mod 200 < 100`. -/
def Obligations.KthAdvanceShowsItsWord : Prop :=
  ∀ (ts : List Millis) (now : Millis) (s : State) (g : Fin 3),
    s.gate = 0 → s.supp = 0 → s.sclk = false → allDue (ts ++ [now]) s → g.val = ts.length % 3 →
    (runTicks (ts ++ [now]) s).xout =
      compose s.cfg (segTable s.cfg (s.buf.read g.val)) (segTable s.cfg (s.buf.read (g.val + 3))) g
        ||| (if (ts.length + 1) % 200 < 100 then s.cfg.decoG1 ||| s.cfg.decoG2 else 0)

/-- R150: the frame of a due TICK at the operation level: besides SUPP, SHW, the lines, GATE, TLAST, TNOW, BITI, DLY and the chip's registers,
nothing changes; in particular BUF and the phase stay. TNOW, BITI and DLY are log 16, the record of reads log 13. -/
def Obligations.AtomicTickWritesOnlyTheStatedState : Prop :=
  ∀ (s : State) (now : Millis), due now s = true →
    ∃ (l : List Event) (r : List Access) (x y w : ShiftWord) (g : Fin 3) (n : Fin 200),
      g.val = (s.gate.val + 1) % 3 ∧ n.val = (s.supp.val + 1) % 200 ∧ w = advanceWord s ∧
      l.filter Event.bySrtc = frameEvents w ∧ r.length = 4 ∧
      tickAtomic now s =
        { s with
          supp := n, shw := w, gate := g, tlast := now, tnow := now, biti := 0, dly := 0
          data := w.getLsbD 0, sclk := false, latch := true, xsr := x, xout := y
          history := s.history ++ l, reads := s.reads ++ r }
end

