-- ==== Sys2Proof/Laws/Bits.lean ====
section
/-! SUPPORT. Facts about the words and fields the model uses (spec/30_encoding.md R84, R85, R88). -/

namespace Sys2Proof

/-- A command word as a number. -/
theorem mkCmd_toNat (op : BitVec 2) (arg : BitVec 32) : (mkCmd op arg).toNat = op.toNat * 2 ^ 32 + arg.toNat := by
  rw [mkCmd, BitVec.toNat_append, Nat.shiftLeft_eq, Nat.mul_comm, ← Nat.two_pow_add_eq_or_of_lt arg.isLt]

/-- The argument of BUFWR as a number. -/
theorem bufwrArg_toNat (idx : BitVec 3) (code : Byte) : (bufwrArg idx code).toNat = idx.toNat * 2 ^ 8 + code.toNat := by
  rw [bufwrArg, BitVec.toNat_append, BitVec.toNat_append, Nat.shiftLeft_eq, Nat.shiftLeft_eq, Nat.mul_comm idx.toNat,
    ← Nat.two_pow_add_eq_or_of_lt code.isLt]
  simp

@[simp] theorem cmdOp_mkCmd (op : BitVec 2) (arg : BitVec 32) : cmdOp (mkCmd op arg) = op := by
  apply BitVec.eq_of_toNat_eq
  have := op.isLt
  have := arg.isLt
  simp only [cmdOp, BitVec.extractLsb'_toNat, mkCmd_toNat, Nat.shiftRight_eq_div_pow]
  omega

@[simp] theorem cmdNow_mkCmd (op : BitVec 2) (arg : BitVec 32) : cmdNow (mkCmd op arg) = arg := by
  apply BitVec.eq_of_toNat_eq
  have := arg.isLt
  simp only [cmdNow, BitVec.extractLsb'_toNat, mkCmd_toNat, Nat.shiftRight_zero]
  omega

@[simp] theorem cmdIdx_mkCmd (op : BitVec 2) (idx : BitVec 3) (code : Byte) :
    cmdIdx (mkCmd op (bufwrArg idx code)) = idx := by
  apply BitVec.eq_of_toNat_eq
  have := idx.isLt
  have := code.isLt
  simp only [cmdIdx, BitVec.extractLsb'_toNat, mkCmd_toNat, bufwrArg_toNat, Nat.shiftRight_eq_div_pow]
  omega

@[simp] theorem cmdCode_mkCmd (op : BitVec 2) (idx : BitVec 3) (code : Byte) :
    cmdCode (mkCmd op (bufwrArg idx code)) = code := by
  apply BitVec.eq_of_toNat_eq
  have := code.isLt
  simp only [cmdCode, BitVec.extractLsb'_toNat, mkCmd_toNat, bufwrArg_toNat, Nat.shiftRight_zero]
  omega

/-- A command word is its two fields. -/
theorem mkCmd_fields (w : CmdWord) : mkCmd (cmdOp w) (cmdNow w) = w := by
  apply BitVec.eq_of_toNat_eq
  have := w.isLt
  simp only [mkCmd_toNat, cmdOp, cmdNow, BitVec.extractLsb'_toNat, Nat.shiftRight_eq_div_pow, Nat.pow_zero, Nat.div_one]
  omega

/-- The chip's `{XSR[18:0], DATA}` (R62) as a shift. -/
theorem concat_setWidth_eq_shift (x : ShiftWord) (d : Bool) :
    BitVec.concat (x.setWidth 19) d = (x <<< 1) ||| (BitVec.ofBool d).setWidth 20 := by
  apply BitVec.eq_of_getLsbD_eq
  intro i hi
  rw [BitVec.getLsbD_concat, BitVec.getLsbD_or, BitVec.getLsbD_shiftLeft, BitVec.getLsbD_setWidth, BitVec.getLsbD_setWidth]
  cases i with
  | zero => cases d <;> simp
  | succ i =>
    have h : i < 19 := by omega
    have h' : i + 1 < 20 := by omega
    cases d <;> simp [h, h']

/-- Bit 0 of the chip's register after a shift. -/
theorem getLsbD_shift_zero (x : ShiftWord) (d : Bool) : (BitVec.concat (x.setWidth 19) d).getLsbD 0 = d := by
  rw [BitVec.getLsbD_concat]
  rfl

/-- Every other bit moves up by one. -/
theorem getLsbD_shift_succ (x : ShiftWord) (d : Bool) (i : Nat) (h : i < 19) :
    (BitVec.concat (x.setWidth 19) d).getLsbD (i + 1) = x.getLsbD i := by
  rw [BitVec.getLsbD_concat, BitVec.getLsbD_setWidth]
  simp [h]

end Sys2Proof
end

