-- ==== Sys2Proof/Laws/Memory.lean ====
section
/-! SUPPORT. BUF as a memory: a read after a write, and the canonical form (spec/20_memory.md R56). -/

namespace Sys2Proof.Machine

@[simp] theorem Memory.read_nil (i : Nat) : Memory.read [] i = Config.freeBufByte i := rfl

theorem Memory.read_cons (c : Host.Cell) (m : Memory) (i : Nat) :
    Memory.read (c :: m) i = if i = c.1 then c.2 else Memory.read m i := by
  cases c
  rfl

/-- The entry written reads as written. -/
theorem Memory.read_write_same (m : Memory) (i : Nat) (v : Byte) : (m.write i v).read i = v := by
  induction m with
  | nil => simp [Memory.write, Memory.read]
  | cons c m ih =>
    obtain ⟨j, u⟩ := c
    simp only [Memory.write]
    split
    · simp [Memory.read]
    · split
      · simp [Memory.read]
      · simp [Memory.read, *]

/-- Every other entry reads as before. -/
theorem Memory.read_write_other (m : Memory) (i k : Nat) (v : Byte) (h : k ≠ i) : (m.write i v).read k = m.read k := by
  induction m with
  | nil => simp [Memory.write, Memory.read, h]
  | cons c m ih =>
    obtain ⟨j, u⟩ := c
    simp only [Memory.write]
    split
    · simp [Memory.read, h]
    · split
      · next hij => subst hij; simp [Memory.read, h]
      · simp [Memory.read, ih]

/-- What is listed after a write was listed before, or is the cell written. -/
theorem Memory.mem_write {m : Memory} {i : Nat} {v : Byte} {c : Host.Cell} (h : c ∈ m.write i v) : c = (i, v) ∨ c ∈ m := by
  induction m with
  | nil => simp [Memory.write] at h; exact .inl h
  | cons d m ih =>
    obtain ⟨j, u⟩ := d
    simp only [Memory.write] at h
    split at h
    · simpa using h
    · split at h
      · rcases List.mem_cons.mp h with h | h
        · exact .inl h
        · exact .inr (List.mem_cons_of_mem _ h)
      · rcases List.mem_cons.mp h with h | h
        · exact .inr (h ▸ List.mem_cons_self)
        · exact (ih h).imp_right (List.mem_cons_of_mem _)

/-- A write to one of the six entries keeps the canonical form. -/
theorem Memory.wf_write {m : Memory} (hm : m.wf) {i : Nat} (v : Byte) (hi : i < 6) : (m.write i v).wf := by
  refine ⟨?_, fun c hc => (Memory.mem_write hc).elim (fun h => h ▸ hi) (hm.2 c)⟩
  obtain ⟨hp, -⟩ := hm
  induction m with
  | nil => simp [Memory.write]
  | cons d m ih =>
    obtain ⟨j, u⟩ := d
    obtain ⟨hd, hm⟩ := List.pairwise_cons.mp hp
    simp only [Memory.write]
    split
    · next hij =>
      exact List.pairwise_cons.mpr ⟨fun c hc => (List.mem_cons.mp hc).elim (fun h => h ▸ hij)
        fun h => Nat.lt_trans hij (hd c h), hp⟩
    · split
      · next hij => exact List.pairwise_cons.mpr ⟨fun c hc => hij ▸ hd c hc, hm⟩
      · refine List.pairwise_cons.mpr ⟨fun c hc => (Memory.mem_write hc).elim (fun h => ?_) (hd c), ih hm⟩
        subst h
        show j < i
        omega

end Sys2Proof.Machine
end

