-- ==== Sys2Proof/Laws/State.lean ====
section
/-! SUPPORT. What each field is after each update of the state: one lemma per field per update, true by definition. -/

namespace Sys2Proof.Machine

/-! ## log -/

@[simp] theorem log_cfg (e : Event) (s : State) : (State.log e s).cfg = s.cfg := rfl
@[simp] theorem log_gate (e : Event) (s : State) : (State.log e s).gate = s.gate := rfl
@[simp] theorem log_supp (e : Event) (s : State) : (State.log e s).supp = s.supp := rfl
@[simp] theorem log_tlast (e : Event) (s : State) : (State.log e s).tlast = s.tlast := rfl
@[simp] theorem log_ph (e : Event) (s : State) : (State.log e s).ph = s.ph := rfl
@[simp] theorem log_biti (e : Event) (s : State) : (State.log e s).biti = s.biti := rfl
@[simp] theorem log_shw (e : Event) (s : State) : (State.log e s).shw = s.shw := rfl
@[simp] theorem log_tnow (e : Event) (s : State) : (State.log e s).tnow = s.tnow := rfl
@[simp] theorem log_data (e : Event) (s : State) : (State.log e s).data = s.data := rfl
@[simp] theorem log_sclk (e : Event) (s : State) : (State.log e s).sclk = s.sclk := rfl
@[simp] theorem log_latch (e : Event) (s : State) : (State.log e s).latch = s.latch := rfl
@[simp] theorem log_dly (e : Event) (s : State) : (State.log e s).dly = s.dly := rfl
@[simp] theorem log_buf (e : Event) (s : State) : (State.log e s).buf = s.buf := rfl
@[simp] theorem log_xsr (e : Event) (s : State) : (State.log e s).xsr = s.xsr := rfl
@[simp] theorem log_xout (e : Event) (s : State) : (State.log e s).xout = s.xout := rfl
@[simp] theorem log_history (e : Event) (s : State) : (State.log e s).history = s.history ++ [e] := rfl
@[simp] theorem log_reads (e : Event) (s : State) : (State.log e s).reads = s.reads := rfl
@[simp] theorem log_host (e : Event) (s : State) : (State.log e s).host = s.host := rfl
@[simp] theorem log_bench (e : Event) (s : State) : (State.log e s).bench = s.bench := rfl

/-! ## hold -/

@[simp] theorem hold_cfg (s : State) : (hold s).cfg = s.cfg := rfl
@[simp] theorem hold_gate (s : State) : (hold s).gate = s.gate := rfl
@[simp] theorem hold_supp (s : State) : (hold s).supp = s.supp := rfl
@[simp] theorem hold_tlast (s : State) : (hold s).tlast = s.tlast := rfl
@[simp] theorem hold_ph (s : State) : (hold s).ph = s.ph := rfl
@[simp] theorem hold_biti (s : State) : (hold s).biti = s.biti := rfl
@[simp] theorem hold_shw (s : State) : (hold s).shw = s.shw := rfl
@[simp] theorem hold_tnow (s : State) : (hold s).tnow = s.tnow := rfl
@[simp] theorem hold_data (s : State) : (hold s).data = s.data := rfl
@[simp] theorem hold_sclk (s : State) : (hold s).sclk = s.sclk := rfl
@[simp] theorem hold_latch (s : State) : (hold s).latch = s.latch := rfl
@[simp] theorem hold_dly (s : State) : (hold s).dly = s.dly := rfl
@[simp] theorem hold_buf (s : State) : (hold s).buf = s.buf := rfl
@[simp] theorem hold_xsr (s : State) : (hold s).xsr = s.xsr := rfl
@[simp] theorem hold_xout (s : State) : (hold s).xout = s.xout := rfl
@[simp] theorem hold_history (s : State) : (hold s).history = s.history ++ [.hold] := rfl
@[simp] theorem hold_reads (s : State) : (hold s).reads = s.reads := rfl
@[simp] theorem hold_host (s : State) : (hold s).host = s.host := rfl
@[simp] theorem hold_bench (s : State) : (hold s).bench = s.bench := rfl

/-! ## noteReads -/

@[simp] theorem noteReads_cfg (l : List Access) (s : State) : (State.noteReads l s).cfg = s.cfg := rfl
@[simp] theorem noteReads_gate (l : List Access) (s : State) : (State.noteReads l s).gate = s.gate := rfl
@[simp] theorem noteReads_supp (l : List Access) (s : State) : (State.noteReads l s).supp = s.supp := rfl
@[simp] theorem noteReads_tlast (l : List Access) (s : State) : (State.noteReads l s).tlast = s.tlast := rfl
@[simp] theorem noteReads_ph (l : List Access) (s : State) : (State.noteReads l s).ph = s.ph := rfl
@[simp] theorem noteReads_biti (l : List Access) (s : State) : (State.noteReads l s).biti = s.biti := rfl
@[simp] theorem noteReads_shw (l : List Access) (s : State) : (State.noteReads l s).shw = s.shw := rfl
@[simp] theorem noteReads_tnow (l : List Access) (s : State) : (State.noteReads l s).tnow = s.tnow := rfl
@[simp] theorem noteReads_data (l : List Access) (s : State) : (State.noteReads l s).data = s.data := rfl
@[simp] theorem noteReads_sclk (l : List Access) (s : State) : (State.noteReads l s).sclk = s.sclk := rfl
@[simp] theorem noteReads_latch (l : List Access) (s : State) : (State.noteReads l s).latch = s.latch := rfl
@[simp] theorem noteReads_dly (l : List Access) (s : State) : (State.noteReads l s).dly = s.dly := rfl
@[simp] theorem noteReads_buf (l : List Access) (s : State) : (State.noteReads l s).buf = s.buf := rfl
@[simp] theorem noteReads_xsr (l : List Access) (s : State) : (State.noteReads l s).xsr = s.xsr := rfl
@[simp] theorem noteReads_xout (l : List Access) (s : State) : (State.noteReads l s).xout = s.xout := rfl
@[simp] theorem noteReads_history (l : List Access) (s : State) : (State.noteReads l s).history = s.history := rfl
@[simp] theorem noteReads_reads (l : List Access) (s : State) : (State.noteReads l s).reads = s.reads ++ l := rfl
@[simp] theorem noteReads_host (l : List Access) (s : State) : (State.noteReads l s).host = s.host := rfl
@[simp] theorem noteReads_bench (l : List Access) (s : State) : (State.noteReads l s).bench = s.bench := rfl

/-! ## enterPhase -/

@[simp] theorem enterPhase_cfg (p : Phase) (s : State) : (enterPhase p s).cfg = s.cfg := rfl
@[simp] theorem enterPhase_gate (p : Phase) (s : State) : (enterPhase p s).gate = s.gate := rfl
@[simp] theorem enterPhase_supp (p : Phase) (s : State) : (enterPhase p s).supp = s.supp := rfl
@[simp] theorem enterPhase_tlast (p : Phase) (s : State) : (enterPhase p s).tlast = s.tlast := rfl
@[simp] theorem enterPhase_ph (p : Phase) (s : State) : (enterPhase p s).ph = p := rfl
@[simp] theorem enterPhase_biti (p : Phase) (s : State) : (enterPhase p s).biti = s.biti := rfl
@[simp] theorem enterPhase_shw (p : Phase) (s : State) : (enterPhase p s).shw = s.shw := rfl
@[simp] theorem enterPhase_tnow (p : Phase) (s : State) : (enterPhase p s).tnow = s.tnow := rfl
@[simp] theorem enterPhase_data (p : Phase) (s : State) : (enterPhase p s).data = s.data := rfl
@[simp] theorem enterPhase_sclk (p : Phase) (s : State) : (enterPhase p s).sclk = s.sclk := rfl
@[simp] theorem enterPhase_latch (p : Phase) (s : State) : (enterPhase p s).latch = s.latch := rfl
@[simp] theorem enterPhase_dly (p : Phase) (s : State) : (enterPhase p s).dly = 0 := rfl
@[simp] theorem enterPhase_buf (p : Phase) (s : State) : (enterPhase p s).buf = s.buf := rfl
@[simp] theorem enterPhase_xsr (p : Phase) (s : State) : (enterPhase p s).xsr = s.xsr := rfl
@[simp] theorem enterPhase_xout (p : Phase) (s : State) : (enterPhase p s).xout = s.xout := rfl
@[simp] theorem enterPhase_history (p : Phase) (s : State) : (enterPhase p s).history = s.history := rfl
@[simp] theorem enterPhase_reads (p : Phase) (s : State) : (enterPhase p s).reads = s.reads := rfl
@[simp] theorem enterPhase_host (p : Phase) (s : State) : (enterPhase p s).host = s.host := rfl
@[simp] theorem enterPhase_bench (p : Phase) (s : State) : (enterPhase p s).bench = s.bench := rfl

/-! ## countHold -/

@[simp] theorem countHold_cfg (s : State) : (countHold s).cfg = s.cfg := rfl
@[simp] theorem countHold_gate (s : State) : (countHold s).gate = s.gate := rfl
@[simp] theorem countHold_supp (s : State) : (countHold s).supp = s.supp := rfl
@[simp] theorem countHold_tlast (s : State) : (countHold s).tlast = s.tlast := rfl
@[simp] theorem countHold_ph (s : State) : (countHold s).ph = s.ph := rfl
@[simp] theorem countHold_biti (s : State) : (countHold s).biti = s.biti := rfl
@[simp] theorem countHold_shw (s : State) : (countHold s).shw = s.shw := rfl
@[simp] theorem countHold_tnow (s : State) : (countHold s).tnow = s.tnow := rfl
@[simp] theorem countHold_data (s : State) : (countHold s).data = s.data := rfl
@[simp] theorem countHold_sclk (s : State) : (countHold s).sclk = s.sclk := rfl
@[simp] theorem countHold_latch (s : State) : (countHold s).latch = s.latch := rfl
@[simp] theorem countHold_dly (s : State) : (countHold s).dly = s.dly + 1 := rfl
@[simp] theorem countHold_buf (s : State) : (countHold s).buf = s.buf := rfl
@[simp] theorem countHold_xsr (s : State) : (countHold s).xsr = s.xsr := rfl
@[simp] theorem countHold_xout (s : State) : (countHold s).xout = s.xout := rfl
@[simp] theorem countHold_history (s : State) : (countHold s).history = s.history := rfl
@[simp] theorem countHold_reads (s : State) : (countHold s).reads = s.reads := rfl
@[simp] theorem countHold_host (s : State) : (countHold s).host = s.host := rfl
@[simp] theorem countHold_bench (s : State) : (countHold s).bench = s.bench := rfl

/-! ## afterFetch -/

@[simp] theorem afterFetch_cfg (s : State) : (afterFetch s).cfg = s.cfg := rfl
@[simp] theorem afterFetch_gate (s : State) : (afterFetch s).gate = s.gate := rfl
@[simp] theorem afterFetch_supp (s : State) : (afterFetch s).supp = s.supp := rfl
@[simp] theorem afterFetch_tlast (s : State) : (afterFetch s).tlast = s.tlast := rfl
@[simp] theorem afterFetch_ph (s : State) : (afterFetch s).ph = s.ph := rfl
@[simp] theorem afterFetch_biti (s : State) : (afterFetch s).biti = s.biti := rfl
@[simp] theorem afterFetch_shw (s : State) : (afterFetch s).shw = s.shw := rfl
@[simp] theorem afterFetch_tnow (s : State) : (afterFetch s).tnow = s.tnow := rfl
@[simp] theorem afterFetch_data (s : State) : (afterFetch s).data = s.data := rfl
@[simp] theorem afterFetch_sclk (s : State) : (afterFetch s).sclk = s.sclk := rfl
@[simp] theorem afterFetch_latch (s : State) : (afterFetch s).latch = s.latch := rfl
@[simp] theorem afterFetch_dly (s : State) : (afterFetch s).dly = s.dly := rfl
@[simp] theorem afterFetch_buf (s : State) : (afterFetch s).buf = s.buf := rfl
@[simp] theorem afterFetch_xsr (s : State) : (afterFetch s).xsr = s.xsr := rfl
@[simp] theorem afterFetch_xout (s : State) : (afterFetch s).xout = s.xout := rfl
@[simp] theorem afterFetch_history (s : State) : (afterFetch s).history = s.history := rfl
@[simp] theorem afterFetch_reads (s : State) : (afterFetch s).reads = s.reads := rfl
@[simp] theorem afterFetch_host (s : State) : (afterFetch s).host = hostAfter s := rfl
@[simp] theorem afterFetch_bench (s : State) : (afterFetch s).bench = benchAfter s := rfl

/-! ## lineWrite_data -/

@[simp] theorem lineWrite_data_cfg (b : Level) (s : State) : (lineWrite .data b s).cfg = s.cfg := rfl
@[simp] theorem lineWrite_data_gate (b : Level) (s : State) : (lineWrite .data b s).gate = s.gate := rfl
@[simp] theorem lineWrite_data_supp (b : Level) (s : State) : (lineWrite .data b s).supp = s.supp := rfl
@[simp] theorem lineWrite_data_tlast (b : Level) (s : State) : (lineWrite .data b s).tlast = s.tlast := rfl
@[simp] theorem lineWrite_data_ph (b : Level) (s : State) : (lineWrite .data b s).ph = s.ph := rfl
@[simp] theorem lineWrite_data_biti (b : Level) (s : State) : (lineWrite .data b s).biti = s.biti := rfl
@[simp] theorem lineWrite_data_shw (b : Level) (s : State) : (lineWrite .data b s).shw = s.shw := rfl
@[simp] theorem lineWrite_data_tnow (b : Level) (s : State) : (lineWrite .data b s).tnow = s.tnow := rfl
@[simp] theorem lineWrite_data_data (b : Level) (s : State) : (lineWrite .data b s).data = b := rfl
@[simp] theorem lineWrite_data_sclk (b : Level) (s : State) : (lineWrite .data b s).sclk = s.sclk := rfl
@[simp] theorem lineWrite_data_latch (b : Level) (s : State) : (lineWrite .data b s).latch = s.latch := rfl
@[simp] theorem lineWrite_data_dly (b : Level) (s : State) : (lineWrite .data b s).dly = s.dly := rfl
@[simp] theorem lineWrite_data_buf (b : Level) (s : State) : (lineWrite .data b s).buf = s.buf := rfl
@[simp] theorem lineWrite_data_xsr (b : Level) (s : State) : (lineWrite .data b s).xsr = s.xsr := rfl
@[simp] theorem lineWrite_data_xout (b : Level) (s : State) : (lineWrite .data b s).xout = s.xout := rfl
@[simp] theorem lineWrite_data_history (b : Level) (s : State) : (lineWrite .data b s).history = s.history ++ [.write .data b] := rfl
@[simp] theorem lineWrite_data_reads (b : Level) (s : State) : (lineWrite .data b s).reads = s.reads := rfl
@[simp] theorem lineWrite_data_host (b : Level) (s : State) : (lineWrite .data b s).host = s.host := rfl
@[simp] theorem lineWrite_data_bench (b : Level) (s : State) : (lineWrite .data b s).bench = s.bench := rfl

/-! ## lineWrite_sclk_low -/

@[simp] theorem lineWrite_sclk_low_cfg (s : State) : (lineWrite .sclk false s).cfg = s.cfg := rfl
@[simp] theorem lineWrite_sclk_low_gate (s : State) : (lineWrite .sclk false s).gate = s.gate := rfl
@[simp] theorem lineWrite_sclk_low_supp (s : State) : (lineWrite .sclk false s).supp = s.supp := rfl
@[simp] theorem lineWrite_sclk_low_tlast (s : State) : (lineWrite .sclk false s).tlast = s.tlast := rfl
@[simp] theorem lineWrite_sclk_low_ph (s : State) : (lineWrite .sclk false s).ph = s.ph := rfl
@[simp] theorem lineWrite_sclk_low_biti (s : State) : (lineWrite .sclk false s).biti = s.biti := rfl
@[simp] theorem lineWrite_sclk_low_shw (s : State) : (lineWrite .sclk false s).shw = s.shw := rfl
@[simp] theorem lineWrite_sclk_low_tnow (s : State) : (lineWrite .sclk false s).tnow = s.tnow := rfl
@[simp] theorem lineWrite_sclk_low_data (s : State) : (lineWrite .sclk false s).data = s.data := rfl
@[simp] theorem lineWrite_sclk_low_sclk (s : State) : (lineWrite .sclk false s).sclk = false := rfl
@[simp] theorem lineWrite_sclk_low_latch (s : State) : (lineWrite .sclk false s).latch = s.latch := rfl
@[simp] theorem lineWrite_sclk_low_dly (s : State) : (lineWrite .sclk false s).dly = s.dly := rfl
@[simp] theorem lineWrite_sclk_low_buf (s : State) : (lineWrite .sclk false s).buf = s.buf := rfl
@[simp] theorem lineWrite_sclk_low_xsr (s : State) : (lineWrite .sclk false s).xsr = s.xsr := rfl
@[simp] theorem lineWrite_sclk_low_xout (s : State) : (lineWrite .sclk false s).xout = s.xout := rfl
@[simp] theorem lineWrite_sclk_low_history (s : State) : (lineWrite .sclk false s).history = s.history ++ [.write .sclk false] := rfl
@[simp] theorem lineWrite_sclk_low_reads (s : State) : (lineWrite .sclk false s).reads = s.reads := rfl
@[simp] theorem lineWrite_sclk_low_host (s : State) : (lineWrite .sclk false s).host = s.host := rfl
@[simp] theorem lineWrite_sclk_low_bench (s : State) : (lineWrite .sclk false s).bench = s.bench := rfl

/-! ## lineWrite_latch_low -/

@[simp] theorem lineWrite_latch_low_cfg (s : State) : (lineWrite .latch false s).cfg = s.cfg := rfl
@[simp] theorem lineWrite_latch_low_gate (s : State) : (lineWrite .latch false s).gate = s.gate := rfl
@[simp] theorem lineWrite_latch_low_supp (s : State) : (lineWrite .latch false s).supp = s.supp := rfl
@[simp] theorem lineWrite_latch_low_tlast (s : State) : (lineWrite .latch false s).tlast = s.tlast := rfl
@[simp] theorem lineWrite_latch_low_ph (s : State) : (lineWrite .latch false s).ph = s.ph := rfl
@[simp] theorem lineWrite_latch_low_biti (s : State) : (lineWrite .latch false s).biti = s.biti := rfl
@[simp] theorem lineWrite_latch_low_shw (s : State) : (lineWrite .latch false s).shw = s.shw := rfl
@[simp] theorem lineWrite_latch_low_tnow (s : State) : (lineWrite .latch false s).tnow = s.tnow := rfl
@[simp] theorem lineWrite_latch_low_data (s : State) : (lineWrite .latch false s).data = s.data := rfl
@[simp] theorem lineWrite_latch_low_sclk (s : State) : (lineWrite .latch false s).sclk = s.sclk := rfl
@[simp] theorem lineWrite_latch_low_latch (s : State) : (lineWrite .latch false s).latch = false := rfl
@[simp] theorem lineWrite_latch_low_dly (s : State) : (lineWrite .latch false s).dly = s.dly := rfl
@[simp] theorem lineWrite_latch_low_buf (s : State) : (lineWrite .latch false s).buf = s.buf := rfl
@[simp] theorem lineWrite_latch_low_xsr (s : State) : (lineWrite .latch false s).xsr = s.xsr := rfl
@[simp] theorem lineWrite_latch_low_xout (s : State) : (lineWrite .latch false s).xout = s.xout := rfl
@[simp] theorem lineWrite_latch_low_history (s : State) : (lineWrite .latch false s).history = s.history ++ [.write .latch false] := rfl
@[simp] theorem lineWrite_latch_low_reads (s : State) : (lineWrite .latch false s).reads = s.reads := rfl
@[simp] theorem lineWrite_latch_low_host (s : State) : (lineWrite .latch false s).host = s.host := rfl
@[simp] theorem lineWrite_latch_low_bench (s : State) : (lineWrite .latch false s).bench = s.bench := rfl

/-! ## completeAdvance -/

@[simp] theorem completeAdvance_cfg (now : Millis) (s : State) : (completeAdvance now s).cfg = s.cfg := rfl
@[simp] theorem completeAdvance_gate (now : Millis) (s : State) : (completeAdvance now s).gate = nextGate s.gate := rfl
@[simp] theorem completeAdvance_supp (now : Millis) (s : State) : (completeAdvance now s).supp = s.supp := rfl
@[simp] theorem completeAdvance_tlast (now : Millis) (s : State) : (completeAdvance now s).tlast = now := rfl
@[simp] theorem completeAdvance_ph (now : Millis) (s : State) : (completeAdvance now s).ph = s.ph := rfl
@[simp] theorem completeAdvance_biti (now : Millis) (s : State) : (completeAdvance now s).biti = s.biti := rfl
@[simp] theorem completeAdvance_shw (now : Millis) (s : State) : (completeAdvance now s).shw = s.shw := rfl
@[simp] theorem completeAdvance_tnow (now : Millis) (s : State) : (completeAdvance now s).tnow = s.tnow := rfl
@[simp] theorem completeAdvance_data (now : Millis) (s : State) : (completeAdvance now s).data = s.data := rfl
@[simp] theorem completeAdvance_sclk (now : Millis) (s : State) : (completeAdvance now s).sclk = s.sclk := rfl
@[simp] theorem completeAdvance_latch (now : Millis) (s : State) : (completeAdvance now s).latch = s.latch := rfl
@[simp] theorem completeAdvance_dly (now : Millis) (s : State) : (completeAdvance now s).dly = s.dly := rfl
@[simp] theorem completeAdvance_buf (now : Millis) (s : State) : (completeAdvance now s).buf = s.buf := rfl
@[simp] theorem completeAdvance_xsr (now : Millis) (s : State) : (completeAdvance now s).xsr = s.xsr := rfl
@[simp] theorem completeAdvance_xout (now : Millis) (s : State) : (completeAdvance now s).xout = s.xout := rfl
@[simp] theorem completeAdvance_history (now : Millis) (s : State) : (completeAdvance now s).history = s.history := rfl
@[simp] theorem completeAdvance_reads (now : Millis) (s : State) : (completeAdvance now s).reads = s.reads := rfl
@[simp] theorem completeAdvance_host (now : Millis) (s : State) : (completeAdvance now s).host = s.host := rfl
@[simp] theorem completeAdvance_bench (now : Millis) (s : State) : (completeAdvance now s).bench = s.bench := rfl

/-! ## beginAdvance -/

@[simp] theorem beginAdvance_cfg (s : State) : (beginAdvance s).cfg = s.cfg := rfl
@[simp] theorem beginAdvance_gate (s : State) : (beginAdvance s).gate = s.gate := rfl
@[simp] theorem beginAdvance_supp (s : State) : (beginAdvance s).supp = nextSupp s.supp := rfl
@[simp] theorem beginAdvance_tlast (s : State) : (beginAdvance s).tlast = s.tlast := rfl
@[simp] theorem beginAdvance_ph (s : State) : (beginAdvance s).ph = s.ph := rfl
@[simp] theorem beginAdvance_biti (s : State) : (beginAdvance s).biti = s.biti := rfl
@[simp] theorem beginAdvance_shw (s : State) : (beginAdvance s).shw = s.shw := rfl
@[simp] theorem beginAdvance_tnow (s : State) : (beginAdvance s).tnow = s.tnow := rfl
@[simp] theorem beginAdvance_data (s : State) : (beginAdvance s).data = s.data := rfl
@[simp] theorem beginAdvance_sclk (s : State) : (beginAdvance s).sclk = s.sclk := rfl
@[simp] theorem beginAdvance_latch (s : State) : (beginAdvance s).latch = s.latch := rfl
@[simp] theorem beginAdvance_dly (s : State) : (beginAdvance s).dly = s.dly := rfl
@[simp] theorem beginAdvance_buf (s : State) : (beginAdvance s).buf = s.buf := rfl
@[simp] theorem beginAdvance_xsr (s : State) : (beginAdvance s).xsr = s.xsr := rfl
@[simp] theorem beginAdvance_xout (s : State) : (beginAdvance s).xout = s.xout := rfl
@[simp] theorem beginAdvance_history (s : State) : (beginAdvance s).history = s.history := rfl
@[simp] theorem beginAdvance_reads (s : State) : (beginAdvance s).reads = s.reads ++ digitReads s := rfl
@[simp] theorem beginAdvance_host (s : State) : (beginAdvance s).host = s.host := rfl
@[simp] theorem beginAdvance_bench (s : State) : (beginAdvance s).bench = s.bench := rfl

end Sys2Proof.Machine
end

