-- ==== Sys2Proof/Laws/Ops.lean ====
section
/-! SUPPORT. Each shared operation once: the state it answers, written out (spec/00_scope.md R12, spec/20_memory.md R62, R63,
spec/41_transport.md R122, R130). -/

namespace Sys2Proof.Machine

/-- `Line(DATA) <- b`. -/
theorem lineWrite_data_eq (b : Level) (s : State) :
    lineWrite .data b s = { s with data := b, history := s.history ++ [.write .data b] } := rfl

/-- `Line(SCLK) <- 0`: never a rising edge. -/
theorem lineWrite_sclk_low_eq (s : State) :
    lineWrite .sclk false s = { s with sclk := false, history := s.history ++ [.write .sclk false] } := rfl

/-- `Line(LATCH) <- 0`: never a rising edge. -/
theorem lineWrite_latch_low_eq (s : State) :
    lineWrite .latch false s = { s with latch := false, history := s.history ++ [.write .latch false] } := rfl

/-- `Line(SCLK) <- 1`: the chip shifts if SCLK was 0 (R62). -/
theorem lineWrite_sclk_high_eq (s : State) :
    lineWrite .sclk true s =
      { s with
        sclk := true
        xsr := if s.sclk then s.xsr else BitVec.concat (s.xsr.setWidth 19) s.data
        history := s.history ++ [.write .sclk true] ++ (if s.sclk then [] else [.shift s.data]) } := by
  cases h : s.sclk <;> simp [lineWrite, chipShift, State.log, h]

/-- `Line(LATCH) <- 1`: the chip commits if LATCH was 0 (R63). -/
theorem lineWrite_latch_high_eq (s : State) :
    lineWrite .latch true s =
      { s with
        latch := true
        xout := if s.latch then s.xout else s.xsr
        history := s.history ++ [.write .latch true] ++ (if s.latch then [] else [.commit s.xsr]) } := by
  cases h : s.latch <;> simp [lineWrite, chipCommit, State.log, h]

/-- The start of a transmission (R122). -/
theorem startTransmission_eq (w : ShiftWord) (now : Millis) (s : State) :
    startTransmission w now s =
      { s with
        shw := w, biti := 19, tnow := now, data := serialBit w 19, ph := .dset, dly := 0
        history := s.history ++ [.write .data (serialBit w 19)] } := rfl

/-- One bit cell: the lines, the chip's shift, the events with the chip's own. -/
theorem bitCell_eq (w : ShiftWord) (i : Nat) (s : State) :
    bitCell w i s =
      { s with
        data := serialBit w i, sclk := false
        xsr := if s.sclk then s.xsr else BitVec.concat (s.xsr.setWidth 19) (serialBit w i)
        history := s.history ++ ([.write .data (serialBit w i), .hold, .write .sclk true]
          ++ (if s.sclk then [] else [.shift (serialBit w i)]) ++ [.hold, .write .sclk false, .hold]) } := by
  cases h : s.sclk <;> simp [bitCell, hold, lineWrite_data_eq, lineWrite_sclk_high_eq, lineWrite_sclk_low_eq, State.log, h]

/-- The latch cell: always one rising edge, so always one commit. -/
theorem latchCell_eq (s : State) :
    latchCell s =
      { s with
        latch := true, xout := s.xsr
        history := s.history ++ [.write .latch false, .hold, .write .latch true, .commit s.xsr, .hold] } := by
  simp [latchCell, hold, lineWrite_latch_high_eq, lineWrite_latch_low_eq, State.log]

/-- RESET: its three line writes after its registers (R186). -/
theorem resetBlock_line_order (s : State) :
    resetBlock s = lineWrite .latch true (lineWrite .sclk false (lineWrite .data false
      { s with gate := 0, supp := 0, tlast := 0, ph := .idle, biti := 0, shw := 0, tnow := 0, dly := 0 })) := rfl

/-- The counters in the form of R161. -/
theorem nextSupp_val (n : Fin 200) : (nextSupp n).val = if n.val = 199 then 0 else n.val + 1 := by
  have := n.isLt
  simp only [nextSupp]
  split <;> omega

theorem nextGate_val (g : Fin 3) : (nextGate g).val = if g.val = 2 then 0 else g.val + 1 := by
  have := g.isLt
  simp only [nextGate]
  split <;> omega

end Sys2Proof.Machine
end

