-- ==== Sys2Proof/Laws/PerInstr.lean ====
section
/-! SUPPORT. Family RowMatch: the encoding of every instruction is a word of its own row of spec/opcode_table.json
(spec/30_encoding.md R92): right format, and the row's pattern under the row's mask. -/

namespace Sys2Proof

/-- The mask of format CMD keeps the op field and clears the argument. -/
theorem mkCmd_and_opMask (op : BitVec 2) (arg : BitVec 32) : mkCmd op arg &&& 0x300000000#34 = op ++ 0#32 := by
  have h : (0x300000000#34 : CmdWord) = 3#2 ++ 0#32 := by decide
  rw [h, mkCmd, BitVec.and_append, BitVec.and_zero]
  congr 1
  exact BitVec.and_allOnes

/-- The same on numbers, as `OpRow.fits` asks it. -/
theorem mkCmd_toNat_and_opMask (op : BitVec 2) (arg : BitVec 32) :
    (mkCmd op arg).toNat &&& 0x300000000 = (op ++ 0#32).toNat := by
  rw [← mkCmd_and_opMask op arg]
  rfl

end Sys2Proof

namespace Sys2Proof.Laws.RowMatch

/-- The encoding fits the instruction's row. -/
def Statement (i : Instr) : Prop := i.row.fits (encode i) = true

/-- The four rows of format CMD. -/
theorem cmd_fits (op : BitVec 2) (arg : BitVec 32) (m : String) :
    (OpRow.mk m .cmd 0x300000000 (op ++ 0#32).toNat).fits (.cmd (mkCmd op arg)) = true := by
  simp [OpRow.fits, EncWord.format, EncWord.bits, mkCmd_toNat_and_opMask]

theorem reset : Statement .reset := by unfold Statement; decide

theorem nop : Statement .nop := cmd_fits 0#2 0#32 "NOP"

theorem tick (now : Millis) : Statement (.tick now) := cmd_fits 1#2 now "TICK"

theorem bufwr (idx : BitVec 3) (code : Byte) : Statement (.bufwr idx code) := cmd_fits 2#2 (bufwrArg idx code) "BUFWR"

theorem rsvd3 : Statement .rsvd3 := cmd_fits 3#2 0#32 "RSVD3"

theorem enc (c : Byte) : Statement (.enc c) := by
  simp [Statement, Instr.row, encode, OpRow.fits, EncWord.format, EncWord.bits]

theorem transmit (w : ShiftWord) : Statement (.transmit w) := by
  simp [Statement, Instr.row, encode, OpRow.fits, EncWord.format, EncWord.bits]

theorem phIdle : Statement .phIdle := by unfold Statement; decide

theorem phDset : Statement .phDset := by unfold Statement; decide

theorem phCkhi : Statement .phCkhi := by unfold Statement; decide

theorem phCklo : Statement .phCklo := by unfold Statement; decide

theorem phLtlo : Statement .phLtlo := by unfold Statement; decide

theorem phLthi : Statement .phLthi := by unfold Statement; decide

end Sys2Proof.Laws.RowMatch
end

