-- ==== Sys2Proof/Laws/Step.lean ====
section
/-! SUPPORT. What a step can be, said once (spec/43_host_interface.md R181, R187; spec/41_transport.md R121). -/

namespace Sys2Proof.Machine

/-- The phase register's operation. -/
theorem decode_phaseCode (p : Phase) :
    decode (.seq (phaseCode p)) = .ok (match p with
      | .idle => .phIdle | .dset => .phDset | .ckhi => .phCkhi | .cklo => .phCklo | .ltlo => .phLtlo | .lthi => .phLthi) := by
  cases p <;> decide

/-- Every case of a step that answers a next state: RESET; a counted cycle of a hold; the exit of a phase; and in IDLE the requested INT
operation, the accepted command, or nothing. -/
theorem step_cases {s t : State} (h : step s = .next t) :
    (s.pins.rst = true ∧ t = resetBlock (afterFetch s)) ∨
    (s.pins.rst = false ∧ s.ph ≠ .idle ∧ holdDone s = false ∧ t = countHold (afterFetch s)) ∨
    (s.pins.rst = false ∧ holdDone s = true ∧
      ((s.ph = .dset ∧ execPhDset (afterFetch s) = .next t) ∨ (s.ph = .ckhi ∧ execPhCkhi (afterFetch s) = .next t) ∨
       (s.ph = .cklo ∧ execPhCklo (afterFetch s) = .next t) ∨ (s.ph = .ltlo ∧ execPhLtlo (afterFetch s) = .next t) ∨
       (s.ph = .lthi ∧ execPhLthi (afterFetch s) = .next t))) ∨
    (s.pins.rst = false ∧ s.ph = .idle ∧
      ((∃ c, s.bench = some (.enc c) ∧ execEnc c (afterFetch s) = .next t) ∨
       (∃ w, s.bench = some (.transmit w) ∧ execTransmit w (afterFetch s) = .next t) ∨
       (∃ w, s.bench = none ∧ s.pins.cmd = some w ∧ exec (decodeCmd w) (afterFetch s) = .next t) ∨
       (s.bench = none ∧ s.pins.cmd = none ∧ t = afterFetch s))) := by
  unfold step fetch at h
  by_cases hr : s.pins.rst = true
  · simp only [hr, if_true] at h
    exact .inl ⟨hr, by simpa [decode, exec, execReset, eq_comm] using h⟩
  · simp only [hr] at h
    replace hr : s.pins.rst = false := by simpa using hr
    by_cases hb : busy s = true
    · have hp : s.ph ≠ .idle := by simpa [busy] using hb
      simp only [hb, if_true] at h
      by_cases hd : holdDone s = true
      · simp only [hd, if_true] at h
        refine .inr (.inr (.inl ⟨hr, hd, ?_⟩))
        cases hph : s.ph with
        | idle => exact absurd hph hp
        | dset => rw [hph] at h; exact .inl ⟨rfl, h⟩
        | ckhi => rw [hph] at h; exact .inr (.inl ⟨rfl, h⟩)
        | cklo => rw [hph] at h; exact .inr (.inr (.inl ⟨rfl, h⟩))
        | ltlo => rw [hph] at h; exact .inr (.inr (.inr (.inl ⟨rfl, h⟩)))
        | lthi => rw [hph] at h; exact .inr (.inr (.inr (.inr ⟨rfl, h⟩)))
      · simp only [hd] at h
        exact .inr (.inl ⟨hr, hp, by simpa using hd, by simpa [eq_comm] using h⟩)
    · have hp : s.ph = .idle := by simpa [busy] using hb
      simp only [hb] at h
      refine .inr (.inr (.inr ⟨hr, hp, ?_⟩))
      cases hbn : s.bench with
      | some op => cases op <;> simp_all [IntOp.word, decode, exec]
      | none =>
        cases hc : s.pins.cmd with
        | some w => simp_all [decode]
        | none =>
          simp only [hbn, hc, hp] at h
          exact .inr (.inr (.inr ⟨rfl, rfl, (Host.Outcome.next.inj h).symm⟩))

/-- Only the host's script and the model's request move around the operation. -/
theorem afterFetch_eq (s : State) : afterFetch s = { s with host := hostAfter s, bench := benchAfter s } := rfl

end Sys2Proof.Machine
end

