-- ==== Sys2Proof/Tests/Slice0.lean ====
section
/-! SUPPORT. The model's own tests. Expected results come from spec/: the encodings of 30_encoding.md, the vectors of
95_test_vectors.md (named V-… in the comments), the rules named. The `test_witness_…` theorems show, for each obligation with
hypotheses, concrete values that meet them together, at the boundaries of each clause. -/

namespace Sys2Proof.Tests

open Sys2Proof Sys2Proof.Machine

/-! ## Helpers -/

/-- BUF = 0, 1, 2, 3, 4, 5 (V-P1). -/
def digits : Memory := [(0, 0), (1, 1), (2, 2), (3, 3), (4, 4), (5, 5)]

/-- Right after RESET, with given contents of BUF and of the chip. -/
def base : State := { State.reset with buf := digits, xsr := 0xABCDE, xout := 0x55555 }

/-- In phase `p` at bit `i` of a transmission of 0x1CFBF, lines as R38 says, XSR = `x`, `n` bits shifted since the last commit. -/
def mid (p : Phase) (i : Fin 20) (x : ShiftWord) (n : Nat) : State :=
  { base with
    ph := p, biti := i, shw := 0x1CFBF, data := serialBit 0x1CFBF i.val, sclk := p == .ckhi, latch := p != .ltlo
    xsr := x, history := base.history ++ List.replicate n (.shift true) }

/-- The same with holds of two cycles, so that the first cycle of a hold does not end it. -/
def slow (s : State) : State := { s with cfg := { s.cfg with settleCycles := 2, fClkHz := 80000 } }

/-- The next state of an operation, if there is one. -/
def result (i : Instr) (s : State) : Option State :=
  match exec i s with
  | .next t => some t
  | .fault _ => none
  | .refused _ => none

/-- The next state of a step, if there is one. -/
def stepResult (s : State) : Option State :=
  match step s with
  | .next t => some t
  | .fault _ => none
  | .refused _ => none

/-! ## Decoding: words written out from the tables of R84 to R87 -/

theorem test_decode_reset : decode (.pin 0b1#1) = .ok .reset := by decide

/-- op = 00, the argument ignored. -/
theorem test_decode_nop : decode (.cmd 0b00_10000000000000000000000000000001#34) = .ok .nop := by decide

/-- op = 01, now = 5 (V-P1: 0x1_00000005). -/
theorem test_decode_tick : decode (.cmd 0b01_00000000000000000000000000000101#34) = .ok (.tick 5) := by decide

/-- op = 10, idx = 011, code = 00000100 (V-H2: 0x2_00000304). -/
theorem test_decode_bufwr : decode (.cmd 0b10_000000000000000000000_011_00000100#34) = .ok (.bufwr 3 4) := by decide

/-- arg[31:11] is ignored (V-H6: 0x2_FFFFF804). -/
theorem test_decode_bufwr_junk : decode (.cmd 0b10_111111111111111111111_000_00000100#34) = .ok (.bufwr 0 4) := by decide

/-- op = 11 (V-H7: 0x3_00000000). -/
theorem test_decode_rsvd3 : decode (.cmd 0b11_00000000000000000000000000000000#34) = .ok .rsvd3 := by decide

theorem test_decode_enc : decode (.romaddr 0b11001000#8) = .ok (.enc 200) := by decide

theorem test_decode_transmit : decode (.shiftword 0b1000_00000000_00000001#20) = .ok (.transmit 0x80001) := by decide

theorem test_decode_phIdle : decode (.seq 0b000#3) = .ok .phIdle := by decide

theorem test_decode_phDset : decode (.seq 0b001#3) = .ok .phDset := by decide

theorem test_decode_phCkhi : decode (.seq 0b010#3) = .ok .phCkhi := by decide

theorem test_decode_phCklo : decode (.seq 0b011#3) = .ok .phCklo := by decide

theorem test_decode_phLtlo : decode (.seq 0b100#3) = .ok .phLtlo := by decide

theorem test_decode_phLthi : decode (.seq 0b101#3) = .ok .phLthi := by decide

/-- What is no operation is rejected by name (R86, R87). -/
theorem test_decode_rejects : decode (.pin 0#1) = .error .resetLow ∧ decode (.seq 0b110#3) = .error (.unusedPhase 6) ∧
    decode (.seq 0b111#3) = .error (.unusedPhase 7) := by decide

/-- V-H2, V-H3, V-P4: words the encoder writes. -/
theorem test_encode_words : encode (.bufwr 3 4) = .cmd 0x200000304 ∧ encode (.bufwr 5 255) = .cmd 0x2000005FF ∧
    encode (.tick 0xFFFFFFFE) = .cmd 0x1FFFFFFFE ∧ encode .rsvd3 = .cmd 0x300000000 := by decide

/-- The rows of spec/opcode_table.json, in its order. -/
def rows : List OpRow :=
  [Instr.reset.row, Instr.nop.row, (Instr.tick 0).row, (Instr.bufwr 0 0).row, Instr.rsvd3.row, (Instr.enc 0).row,
   (Instr.transmit 0).row, Instr.phIdle.row, Instr.phDset.row, Instr.phCkhi.row, Instr.phCklo.row, Instr.phLtlo.row,
   Instr.phLthi.row]

/-- No word of a format fits two rows: two patterns of one format differ under the masks they share. -/
theorem test_rows_do_not_overlap :
    rows.Pairwise fun a b => a.format = b.format → a.pattern &&& b.mask ≠ b.pattern &&& a.mask := by decide

/-! ## The host's table words -/

theorem test_tableWord_cmd : decodeTableWord 40 0x200000304 = some (.bufwr 3 4) ∧
    decodeTableWord 34 0x100000005 = some (.tick 5) ∧ decodeTableWord 40 0x400000000 = none := by decide

theorem test_tableWord_others : decodeTableWord 1 1 = some .reset ∧ decodeTableWord 8 2 = some .phCkhi ∧
    decodeTableWord 8 200 = some (.enc 200) ∧ decodeTableWord 24 0x80001 = some (.transmit 0x80001) ∧
    decodeTableWord 3 6 = none := by decide

/-- A placed command word is the first instruction after reset. -/
theorem test_withFetchWord_cmd :
    (stepResult (State.reset.withFetchWord 40 0x200000304)).map (fun t => (t.buf, t.ph)) = some ([(3, 4)], .idle) := by decide

/-- A placed phase code runs as the phase's exit. -/
theorem test_withFetchWord_phase :
    (stepResult (State.reset.withFetchWord 8 2)).map (fun t => (t.ph, t.sclk)) = some (.cklo, false) := by decide

/-- A placed reset pin, ROM address and shift word. -/
theorem test_withFetchWord_others :
    (fetch (base.withFetchWord 1 1) = some (.pin 1)) ∧ fetch (base.withFetchWord 8 200) = some (.romaddr 200) ∧
    fetch (base.withFetchWord 20 0x80001) = some (.shiftword 0x80001) := by decide

/-! ## Well-formedness: each check refuses an ill-formed term -/

theorem test_wf_blank : defaultBuild.blankOk = true ∧ { defaultBuild with blankCode := 17 }.blankOk = false ∧
    { defaultBuild with blankCode := 8 }.blankOk = false ∧ { defaultBuild with nGlyph := 16 }.blankOk = false ∧
    { defaultBuild with nGlyph := 257 }.blankOk = false ∧
    { defaultBuild with nGlyph := 18 }.blankOk = false ∧
    { defaultBuild with blankCode := 3, tableA := refA.set 3 0x00 }.blankOk = false := by decide

theorem test_wf_gates : defaultBuild.gatesOk = true ∧
    { defaultBuild with gateSel := #v[0x10000, 0x10000, 0x40000] }.gatesOk = false ∧
    { defaultBuild with gateSel := #v[0x08000, 0x20000, 0x40000] }.gatesOk = false ∧
    { defaultBuild with gateSel := #v[0x30000, 0x40000, 0x80000] }.gatesOk = false ∧
    { defaultBuild with gateSel := #v[0x00000, 0x20000, 0x40000] }.gatesOk = false := by decide

theorem test_wf_decos : defaultBuild.decosOk = true ∧ { defaultBuild with decoG1 := 0x10000 }.decosOk = false ∧
    { defaultBuild with decoG2 := 0x08080 }.decosOk = false ∧ { defaultBuild with decoG2 := 0 }.decosOk = false := by decide

theorem test_wf_hold : defaultBuild.holdOk = true ∧ { defaultBuild with settleCycles := 0, fClkHz := 0 }.holdOk = false ∧
    { defaultBuild with fClkHz := 40001 }.holdOk = false := by decide

theorem test_wf_canonical : canonicalCmd 0x2FFFFF804 = 0x200000004 ∧ canonicalCmd 0x012345678 = 0 ∧
    canonicalCmd 0x1FFFFFFFF = 0x1FFFFFFFF ∧ canonicalCmd 0x3FFFFFFFF = 0x300000000 := by decide

theorem test_wf_dutiful : Instr.dutiful defaultBuild .rsvd3 = false ∧ Instr.dutiful defaultBuild (.bufwr 6 1) = false ∧
    Instr.dutiful defaultBuild (.bufwr 5 17) = false ∧ Instr.dutiful defaultBuild (.bufwr 5 16) = true := by decide

/-! ## The segment encoder (V-E1 to V-E7) -/

theorem test_enc_table : segTable defaultBuild 0x00 = 0x3F ∧ segTable defaultBuild 0x08 = 0x7F ∧
    segTable defaultBuild 0x0F = 0x71 ∧ segTable defaultBuild 0x10 = 0x00 ∧ segTable defaultBuild 0x11 = 0x00 ∧
    segTable defaultBuild 0xC8 = 0x00 ∧ segTable defaultBuild 0xFF = 0x00 := by decide

/-- R110: `ENC(3) = 0x4F`. -/
theorem test_enc_result : (result (.enc 3) base).map (·.reads) = some [.rom 3 0x4F] := by decide

/-- R83: the classes of codes. -/
theorem test_glyph_classes : glyphOf defaultBuild 9 = .digit 9 ∧ glyphOf defaultBuild 15 = .hexDigit 15 ∧
    glyphOf defaultBuild 16 = .blank ∧ glyphOf defaultBuild 17 = .padding ∧
    glyphOf { defaultBuild with nGlyph := 20 } 19 = .status := by decide

/-- A build of variant B, whose table differs from table A, with 18 glyphs. -/
def buildB : Config := { defaultBuild with variant := .b, tableB := refA.reverse.rotate 1 ++ [0x3E], nGlyph := 18 }

/-- R113: TABLE_VARIANT names the table; the other one is not read. -/
theorem test_variant_b : builtTable buildB = buildB.tableB ∧ segTable buildB 0 = 0x71 ∧ segTable buildB 17 = 0x3E ∧
    segTable buildB 16 = 0x00 ∧ segTable buildB 18 = 0x00 := by decide

/-! ## COMPOSE and decoration (V-C1 to V-C5) -/

theorem test_compose : compose defaultBuild 0x00 0x00 0 = 0x10000 ∧ compose defaultBuild 0xFF 0xFF 2 = 0x4FFFF ∧
    compose defaultBuild 0x80 0x01 1 = 0x20180 ∧ compose defaultBuild 0x3F 0x4F 0 = 0x14F3F ∧
    compose defaultBuild 0x7F 0x7F 1 = 0x27F7F := by decide

theorem test_decorate : decorate defaultBuild true 0x10000 = 0x18080 ∧ decorate defaultBuild true 0x4FFFF = 0x4FFFF ∧
    decorate defaultBuild true 0x20180 = 0x28180 ∧ decorate defaultBuild true 0x27F7F = 0x2FFFF ∧
    decorate defaultBuild false 0x14F3F = 0x14F3F := by decide

/-! ## TICK -/

/-- V-K1 to V-K14. -/
theorem test_due : [(0, 0), (0, 4), (0, 5), (0, 6), (100, 104), (100, 105), (5, 5), (0xFFFFFFFE, 2), (0xFFFFFFFE, 3),
      (0xFFFFFFFF, 0), (100, 99), (1000, 0), (0x80000000, 0), (0, 0xFFFFFFFF)].map
      (fun p => due (BitVec.ofNat 32 p.2) { base with tlast := BitVec.ofNat 32 p.1 })
    = [false, false, true, true, false, true, false, false, true, false, true, true, true, true] := by decide

/-- V-P1, first TICK: the word, and the state at the start of its transmission. -/
theorem test_tick_starts : (result (.tick 5) base).map (fun t => (t.shw, t.ph, t.biti.val, t.supp.val, t.gate.val, t.tnow))
    = some (0x1CFBF, .dset, 19, 1, 0, 5) := by decide

/-- V-K2: not due, nothing happens. -/
theorem test_tick_not_due : (result (.tick 4) base).map (fun t => (t.ph, t.supp.val, t.history.length, t.reads.length))
    = some (.idle, 0, 3, 0) := by decide

/-- V-S1 to V-S5: (GATE, SUPP) before, the decoration, and (GATE, SUPP) after. -/
theorem test_advance_counters : [(0, 0), (2, 98), (0, 99), (1, 198), (2, 199)].map
      (fun p : Fin 3 × Fin 200 => let t := tickAtomic 5 { base with gate := p.1, supp := p.2 }
        (t.gate.val, t.supp.val, decide (t.shw &&& 0x08080 = 0x08080)))
    = [(1, 1, true), (0, 99, true), (1, 100, false), (2, 199, false), (0, 0, true)] := by decide

/-- V-P1, the atomic TICK: word sent, what the display shows, TLAST. -/
theorem test_tick_atomic : (fun t : State => (t.shw, t.xsr, t.xout, t.tlast, commits t.history)) (tickAtomic 5 base)
    = (0x1CFBF, 0x1CFBF, 0x1CFBF, 5, [0x1CFBF]) := by decide +kernel

/-! ## TRANSMIT and the phases -/

/-- V-T3: `TRANSMIT(0x80001)`. -/
theorem test_transmit_ends : (result (.transmit 0x80001) base).map (fun t => (t.xout, t.data, t.sclk, t.latch))
    = some (0x80001, true, false, true) := by decide

/-- V-T5: XSR after cells 0, 3, 7 and 18. -/
theorem test_transmit_cells : (sendCells 0x1CFBF 1 base).xsr = 0x579BC ∧ (sendCells 0x1CFBF 4 base).xsr = 0xBCDE1 ∧
    (sendCells 0x1CFBF 8 base).xsr = 0xCDE1C ∧ (sendCells 0x1CFBF 19 base).xsr = 0x0E7DF := by decide

/-- V-T1, V-T2, V-T4, V-T5: DATA edges. -/
theorem test_data_edges : dataEdges false (frameEvents 0) = 0 ∧ dataEdges false (frameEvents 0xFFFFF) = 1 ∧
    dataEdges true (frameEvents 0xAAAAA) = 19 ∧ dataEdges false (frameEvents 0x55555) = 19 := by decide

theorem test_phIdle : (result .phIdle base).map (fun t => (t.ph, t.history.length)) = some (.idle, 3) := by decide

/-- V-T5, cell 3: bit 16 is 1. -/
theorem test_phDset : (result .phDset (mid .dset 16 0x5E6F0 3)).map (fun t => (t.ph, t.sclk, t.xsr, t.biti.val))
    = some (.ckhi, true, 0xBCDE1, 16) := by decide

theorem test_phCkhi : (result .phCkhi (mid .ckhi 16 0xBCDE1 4)).map (fun t => (t.ph, t.sclk, t.xsr, t.data))
    = some (.cklo, false, 0xBCDE1, true) := by decide

/-- R125: the next lower bit; bit 12 of 0x1CFBF is 0. -/
theorem test_phCklo_next : (result .phCklo (mid .cklo 13 0xE6F0E 7)).map (fun t => (t.ph, t.biti.val, t.data, t.latch))
    = some (.dset, 12, false, true) := by decide

/-- R125: "with BITI = 0 the exit begins the latch pulse". -/
theorem test_phCklo_last : (result .phCklo (mid .cklo 0 0x1CFBF 20)).map (fun t => (t.ph, t.latch, t.xout))
    = some (.ltlo, false, 0x55555) := by decide

theorem test_phLtlo : (result .phLtlo (mid .ltlo 0 0x1CFBF 20)).map (fun t => (t.ph, t.latch, t.xout))
    = some (.lthi, true, 0x1CFBF) := by decide

/-- R158, R159: from GATE = 2 to 0, and the tick's own sample. -/
theorem test_phLthi : (result .phLthi { mid .lthi 0 0x1CFBF 0 with gate := 2, tnow := 15 }).map
    (fun t => (t.ph, t.gate.val, t.tlast)) = some (.idle, 0, 15) := by decide

/-! ## RESET and the host's commands -/

/-- V-H8: RESET in CKHI. -/
theorem test_reset_in_cells : (result .reset { mid .ckhi 12 0xCDE1C 8 with gate := 1, supp := 7, tlast := 9 }).map
    (fun t => ((t.gate.val, t.supp.val, t.tlast, t.ph), t.xsr, t.xout, t.history.drop 11))
    = some ((0, 0, 0, .idle), 0xCDE1C, 0x55555, [.write .data false, .write .sclk false, .write .latch true]) := by decide

/-- V-H9: RESET in LTLO commits the complete word. -/
theorem test_reset_in_ltlo : (result .reset (mid .ltlo 0 0x1CFBF 20)).map (fun t => (t.xout, commits t.history))
    = some (0x1CFBF, [0x1CFBF]) := by decide

/-- V-H1. -/
theorem test_nop : (result .nop base).map (fun t => (t.buf, t.history.length)) = some (digits, 3) := by decide

/-- V-H2, from BUF[3] = 3. -/
theorem test_bufwr : (result (.bufwr 3 4) base).map (·.buf) = some [(0, 0), (1, 1), (2, 2), (3, 4), (4, 4), (5, 5)] := by decide

/-- V-H4, V-H5. -/
theorem test_bufwr_beyond : (result (.bufwr 6 1) base).map (·.buf) = some digits ∧
    (result (.bufwr 7 1) base).map (·.buf) = some digits := by decide

/-- V-H7: the hardware's effect (R185). -/
theorem test_rsvd3 : (result .rsvd3 base).map (fun t => (t.buf, t.history.length)) = some (digits, 3) := by decide

/-- V-H10: a command presented in DSET is not accepted, the phase steps. -/
theorem test_busy_port : (stepResult { mid .dset 16 0x5E6F0 3 with host := [HostCycle.present 0x200000304] }).map
    (fun t => (t.ph, t.buf, t.host)) = some (.ckhi, digits, [HostCycle.present 0x200000304]) := by decide

/-- V-H11: `rst = 1` and `TICK 5` in the same cycle: RESET happens, TICK is not accepted in that cycle. -/
theorem test_reset_beats_tick : (stepResult { base with gate := 2, host := [⟨true, some 0x100000005, true⟩] }).map
    (fun t => (t.gate.val, t.ph, t.host)) = some (0, .idle, [HostCycle.present 0x100000005]) := by decide

/-! ## Textual syntax (R91) -/

theorem test_parse_program : parseProgram ["RESET  ; rst pulse".toList, "".toList, "BUFWR 3, '4'".toList,
      "LOADBUF 8, 8, 8, 8, 8, 0x10".toList, "TICKS 5, 5, 401".toList, ".cmd 0x2_FFFFF804".toList]
    = some [.reset, .bufwr 3 4, .loadbuf [8, 8, 8, 8, 8, 16], .ticks 5 5 401, .raw 0x2FFFFF804] := by decide

theorem test_parse_refuses : parseLine "BUFWR 8, 1".toList = none ∧ parseLine "TICK 0x100000000".toList = none ∧
    parseLine "HALT".toList = none ∧ parseLine "LOADBUF 1, 2".toList = none := by decide

/-- V-P3: the first and the last word of `TICKS 5, 5, 401` by its formula, on a shorter run. -/
theorem test_ticks_expand : (AsmLine.ticks 5 5 3).cycles
    = [HostCycle.present 0x100000005, HostCycle.present 0x10000000A, HostCycle.present 0x10000000F] := by decide

/-! ## Witnesses: each obligation's hypotheses are met together, at the boundaries of its clauses -/

/-- Quiet cycles, of which one keeps a command presented. -/
def someCycles : List HostCycle := [HostCycle.quiet, HostCycle.present 0x200000304, HostCycle.quiet]

theorem test_witness_DecodeInvertsEncode : decode (.cmd 0x2FFFFF804) = .ok (.bufwr 0 4) ∧
    encode (.bufwr 0 4) = (EncWord.cmd 0x2FFFFF804).canonical := by decide

theorem test_witness_OnlyThreeWordsAreNoOperation : decode (.seq 5) = .ok .phLthi ∧ decode (.seq 6) = .error (.unusedPhase 6) := by
  decide

theorem test_witness_AssemblerWritesTheStatedWords :
    (AsmLine.tick (2 ^ 32 - 1)).cycles = [HostCycle.present 0x1FFFFFFFF] ∧
    (AsmLine.bufwr 7 255).cycles = [HostCycle.present 0x2000007FF] ∧
    (AsmLine.raw (2 ^ 34 - 1)).cycles = [HostCycle.present 0x3FFFFFFFF] := by decide

theorem test_witness_StepRunsTheSelectedOperation :
    (fetch { base with host := [HostCycle.offer 0x100000005] } = some (.cmd 0x100000005) ∧
      decode (.cmd 0x100000005) = .ok (.tick 5)) ∧
    fetch (slow (mid .dset 16 0x5E6F0 3)) = none := by decide

theorem test_witness_ReadyPortAcceptsThePresentedCommand :
    let c := HostCycle.offer 0x200000304
    c.rst = false ∧ c.cmd = some 0x200000304 ∧ base.ph = .idle ∧ base.bench = none := by decide

theorem test_witness_BusyPortIgnoresCommands :
    busy (mid .dset 16 0x5E6F0 3) = true ∧ noReset (someCycles.take 1) ∧ noReset ([HostCycle.offer 0x200000304].take 1) := by
  unfold noReset; decide

theorem test_witness_KeptCommandWaitsForReady :
    let c := HostCycle.present 0x200000304
    let d := HostCycle.offer 0x200000304
    (c.rst = false ∧ c.cmd = some 0x200000304 ∧ c.keep = true) ∧ (d.rst = false ∧ d.cmd = some 0x200000304 ∧ d.keep = false) ∧
    busy (mid .lthi 0 0x1CFBF 0) = true := by decide

theorem test_witness_ResetBeatsCommandAndPhase :
    ({ mid .dset 16 0x5E6F0 3 with host := [⟨true, some 0x100000005, true⟩] } : State).pins.rst = true ∧
    fetch { base with host := [HostCycle.offer 0x100000005] } = some (.cmd 0x100000005) ∧
    fetch (mid .dset 16 0x5E6F0 3) = some (.seq 1) ∧ fetch base = some (.seq 0) := by decide

theorem test_witness_PortsShowReadyAndTheLineRegisters :
    (({ base with host := [HostCycle.offer 0x100000005] } : State).bench = none ∧
      ({ base with host := [HostCycle.offer 0x100000005] } : State).pins.cmd = some 0x100000005 ∧
      (outputs false base).cmdReady = true) ∧
    (({ mid .lthi 0 0x1CFBF 0 with host := [HostCycle.offer 0x100000005] } : State).bench = none ∧
      ({ mid .lthi 0 0x1CFBF 0 with host := [HostCycle.offer 0x100000005] } : State).pins.cmd = some 0x100000005 ∧
      (outputs false (mid .lthi 0 0x1CFBF 0)).cmdReady = false) := by decide

theorem test_witness_ConfigurationIsFixed : ∃ t, step (mid .dset 16 0x5E6F0 3) = .next t := ⟨_, rfl⟩

/-- The chip's registers agree with the phase in the states of `mid` used below. -/
theorem lines_mid (p : Phase) (i : Fin 20) (x : ShiftWord) (n : Nat)
    (h : p = .idle ∨ p = .ltlo ∨ p = .lthi → i = 0) : LinesByPhase (mid p i x n) := ⟨rfl, rfl, rfl, h⟩

theorem test_witness_ResetNeverCommitsAPartialWord :
    (LinesByPhase (mid .ckhi 12 0xCDE1C 8) ∧ ChipHasSentBits (mid .ckhi 12 0xCDE1C 8) ∧
      ∃ t, exec .reset (mid .ckhi 12 0xCDE1C 8) = .next t) ∧
    (LinesByPhase (mid .ltlo 0 0x1CFBF 20) ∧ ChipHasSentBits (mid .ltlo 0 0x1CFBF 20) ∧
      ∃ t, exec .reset (mid .ltlo 0 0x1CFBF 20) = .next t) :=
  ⟨⟨lines_mid _ _ _ _ (by decide), ⟨by decide, by decide⟩, _, rfl⟩,
   ⟨lines_mid _ _ _ _ (by decide), ⟨by decide, by decide⟩, _, rfl⟩⟩

theorem test_witness_NopChangesNothing : cmdOp 0x0FFFFFFFF = 0#2 := by decide

theorem test_witness_ReservedCommandActsAsNop : cmdOp 0x3FFFFFFFF = 3#2 := by decide

theorem test_witness_BufwrWritesOneEntryAndNothingElse :
    base.ph = .idle ∧ (0#3).toNat ≤ 5 ∧ (5#3).toNat ≤ 5 ∧ (0 : Nat) ≠ (5#3).toNat := by decide

theorem test_witness_BufwrBeyondTheBufferWritesNothing : (6#3 = 6#3 ∨ 6#3 = 7#3) ∧ (7#3 = 6#3 ∨ 7#3 = 7#3) := by decide

theorem test_witness_OnlyBufwrChangesBuf :
    (∃ t, exec .reset base = .next t) ∧ ∀ idx code, Instr.reset ≠ .bufwr idx code := ⟨⟨_, rfl⟩, by simp⟩

theorem test_witness_StepKeepsBufWellFormed :
    ({ base with host := [HostCycle.offer 0x2000005FF] } : State).buf.wf ∧
    ∃ t, step { base with host := [HostCycle.offer 0x2000005FF] } = .next t := ⟨by decide, _, rfl⟩

theorem default_ok : defaultBuild.Ok := by decide

theorem test_witness_PaddingAndBlankAreDark :
    (defaultBuild.nGlyph ≤ (17#8).toNat ∧ defaultBuild.nGlyph ≤ (255#8).toNat) ∧ defaultBuild.Ok ∧
    ((16#8).toNat < defaultBuild.nGlyph ∧ (0#8).toNat < defaultBuild.nGlyph ∧ defaultBuild.variant = .a) ∧
    ((16#8).toNat < buildB.nGlyph ∧ (0#8).toNat < buildB.nGlyph ∧ buildB.variant = .b) :=
  ⟨by decide, default_ok, by decide, by decide⟩

/-- A build with a status letter at 17: every class has a code at its boundaries. -/
theorem test_witness_GlyphClassesPartitionTheCodes : buildB.Ok ∧
    ((0#8).toNat ≤ 9 ∧ (9#8).toNat ≤ 9) ∧ (10 ≤ (10#8).toNat ∧ (15#8).toNat ≤ 15) ∧
    (16 ≤ (17#8).toNat ∧ (17#8).toNat < buildB.nGlyph ∧ 17#8 ≠ buildB.blankCode) ∧
    (buildB.nGlyph ≤ (18#8).toNat ∧ buildB.nGlyph ≤ (255#8).toNat) := by decide

/-- Elapsed 5 and elapsed 4 (V-K3, V-K2). -/
theorem test_witness_TickAdvancesAtTheThreshold : base.ph = .idle ∧
    5 ≤ ((5#32).toNat + 2 ^ 32 - base.tlast.toNat) % 2 ^ 32 ∧
    ¬ 5 ≤ ((4#32).toNat + 2 ^ 32 - base.tlast.toNat) % 2 ^ 32 := by decide

/-- The four ticks of E3 from TLAST = 100. -/
theorem test_witness_TicksNotDueDoNothing :
    ∀ now ∈ ([100, 101, 104, 104] : List Millis), now - ({ base with tlast := 100 } : State).tlast < 5#32 := by
  simp

theorem test_witness_DueTickStartsItsTransmission : base.ph = .idle ∧ 5#32 ≤ 5#32 - base.tlast := by decide

theorem test_witness_ComposePlacesLanesAndOneGateBit : defaultBuild.Ok := default_ok

/-- The new SUPP is 99, 100 and (from 199) 0. -/
theorem test_witness_DecorationFollowsTheNewCounter :
    (due 5 { base with supp := 98 } = true ∧ (tickAtomic 5 { base with supp := 98 }).supp.val = 99) ∧
    (due 5 { base with supp := 99 } = true ∧ (tickAtomic 5 { base with supp := 99 }).supp.val = 100) ∧
    (due 5 { base with supp := 199 } = true ∧ (tickAtomic 5 { base with supp := 199 }).supp.val = 0) := by decide

theorem test_witness_SuppCountsAdvancesModulo200 :
    (due 5 { base with supp := 199 } = true ∧ due 5 { base with supp := 198 } = true) ∧ due 4 base = false ∧
    ((∀ now, Instr.phLthi ≠ .tick now) ∧ Instr.phLthi ≠ .reset ∧ ∃ t, exec .phLthi (mid .lthi 0 0x1CFBF 0) = .next t) :=
  ⟨by decide, by decide, by simp, by simp, _, rfl⟩

/-- One operation in the scope of each clause. -/
theorem test_witness_OnlyTheStatedOperationsWriteTheRegisters :
    (∃ t, exec (.bufwr 0 4) base = .next t) ∧ Instr.bufwr 0 4 ≠ .reset ∧ Instr.bufwr 0 4 ≠ .phLthi ∧
    (∀ now, Instr.bufwr 0 4 ≠ .tick now) ∧ (∀ w, Instr.bufwr 0 4 ≠ .transmit w) ∧ Instr.bufwr 0 4 ≠ .phCklo ∧
    Instr.bufwr 0 4 ≠ .phDset ∧ Instr.bufwr 0 4 ≠ .phCkhi ∧ Instr.bufwr 0 4 ≠ .phLtlo :=
  ⟨⟨_, rfl⟩, by simp⟩

theorem test_witness_OnlyADueTickLeavesIdle :
    ∃ t, base.ph = .idle ∧ step { base with host := [HostCycle.offer 0x100000005] } = .next t ∧ t.ph ≠ .idle :=
  ⟨_, rfl, rfl, by decide⟩

theorem test_witness_IdleStaysIdle : base.ph = .idle ∧ base.pins.rst = false ∧ base.pins.cmd = none ∧ base.bench = none := by
  decide

theorem test_witness_ClockHighAndLowPhases : (mid .dset 16 0x5E6F0 3).ph = .dset ∧ (mid .ckhi 16 0xBCDE1 4).ph = .ckhi := by
  decide

theorem test_witness_ClockLowPhaseSendsTheNextBitOrLatches :
    ((mid .cklo 19 0x579BC 1).ph = .cklo ∧ (mid .cklo 19 0x579BC 1).biti.val = (18 : Fin 20).val + 1) ∧
    ((mid .cklo 1 0x0E7DF 19).ph = .cklo ∧ (mid .cklo 1 0x0E7DF 19).biti.val = (0 : Fin 20).val + 1) ∧
    ((mid .cklo 0 0x1CFBF 20).ph = .cklo ∧ (mid .cklo 0 0x1CFBF 20).biti.val = 0) := by decide

theorem test_witness_LatchPhasesCommitAndCompleteTheAdvance :
    (mid .ltlo 0 0x1CFBF 20).ph = .ltlo ∧ (mid .lthi 0 0x1CFBF 0).ph = .lthi := by decide

theorem test_witness_HoldWritesNothingButItsCounter :
    let s := slow (mid .dset 16 0x5E6F0 3)
    busy s = true ∧ s.pins.rst = false ∧ s.dly + 1 < s.cfg.settleCycles := by decide

theorem test_witness_UnselectedOperationsHaveNoEffect :
    busy (mid .lthi 0 0x1CFBF 0) = true ∧ (mid .lthi 0 0x1CFBF 0).ph ≠ .dset ∧ base.ph ≠ .lthi := by decide

theorem test_witness_DataIsStableAroundTheClockPulse :
    (∃ t, (mid .dset 16 0x5E6F0 3).pins.rst = false ∧ step (mid .dset 16 0x5E6F0 3) = .next t) ∧
    (∃ t, step (mid .ckhi 16 0xBCDE1 4) = .next t) ∧
    (∃ t, holdDone (slow (mid .cklo 16 0xBCDE1 4)) = false ∧ step (slow (mid .cklo 16 0xBCDE1 4)) = .next t) :=
  ⟨⟨_, by decide, rfl⟩, ⟨_, rfl⟩, ⟨_, by decide, rfl⟩⟩

theorem test_witness_TransmitSendsTheStatedFrame : base.ph = .idle := rfl

theorem test_witness_TransmissionCountsDoNotDependOnTheWord : base.ph = .idle ∧ base.sclk = false ∧ base.latch = true := by
  decide

theorem test_witness_TransmissionLeavesTheWordInTheChip : base.ph = .idle ∧ base.sclk = false := by decide

theorem test_witness_BitCellsFillTheChipFromTheTop : base.sclk = false ∧ 0 ≤ 20 ∧ 20 ≤ 20 := by decide

theorem test_witness_DataEdgesAreTheBitChanges : base.ph = .idle := rfl

theorem test_witness_ChipShiftsOnlyOnRisingClock :
    ∃ t, base.bench = none ∧ step (mid .dset 16 0x5E6F0 3) = .next t := ⟨_, rfl, rfl⟩

theorem test_witness_DisplayChangesOnlyOnRisingLatch :
    ∃ t, base.bench = none ∧ step (mid .ltlo 0 0x1CFBF 20) = .next t := ⟨_, rfl, rfl⟩

theorem lines_base : LinesByPhase base := ⟨by decide, by decide, by decide, fun _ => rfl⟩

theorem test_witness_PhasesCarryOutTheAtomicTick :
    let c := HostCycle.offer (mkCmd 1#2 5)
    1 ≤ base.cfg.settleCycles ∧ LinesByPhase base ∧ base.ph = .idle ∧ base.bench = none ∧ c.rst = false ∧
      c.cmd = some (mkCmd 1#2 5) ∧ noReset someCycles ∧ due 5 base = true :=
  ⟨by decide, lines_base, rfl, rfl, rfl, rfl, by unfold noReset; decide, by decide⟩

theorem hold_mid (p : Phase) (i : Fin 20) (x : ShiftWord) (n : Nat) : HoldCounted (mid p i x n) := ⟨Nat.zero_lt_one, fun _ => rfl⟩

/-- At the start of DSET for bit 19, all 62 cycles left; at the end, one. -/
theorem test_witness_EveryTransmissionEndsInSixtyTwoHolds :
    (HoldCounted (mid .dset 19 0xABCDE 0) ∧ noReset (mid .dset 19 0xABCDE 0).host ∧
      62 ≤ cyclesLeft (mid .dset 19 0xABCDE 0) ∧ (mid .dset 19 0xABCDE 0).ph ≠ .idle) ∧
    (HoldCounted (mid .lthi 0 0x1CFBF 0) ∧ 1 ≤ cyclesLeft (mid .lthi 0 0x1CFBF 0)) ∧
    (∃ t, due 5 base = true ∧ exec (.tick 5) base = .next t) :=
  ⟨⟨hold_mid _ _ _ _, by simp [noReset, mid, base, State.reset], by decide, by decide⟩, ⟨hold_mid _ _ _ _, by decide⟩,
   _, by decide, rfl⟩

theorem test_witness_EveryScriptEndsInIdle :
    HoldCounted { mid .cklo 12 0xCDE1C 8 with host := someCycles } := ⟨Nat.zero_lt_one, fun _ => rfl⟩

theorem test_witness_StepKeepsLinesByPhase :
    ∃ t, LinesByPhase (mid .cklo 0 0x1CFBF 20) ∧ step (mid .cklo 0 0x1CFBF 20) = .next t :=
  ⟨_, lines_mid _ _ _ _ (by decide), rfl⟩

theorem test_witness_StepKeepsSentBitsInTheChip :
    ∃ t, LinesByPhase (mid .ltlo 0 0x1CFBF 20) ∧ ChipHasSentBits (mid .ltlo 0 0x1CFBF 20) ∧
      step (mid .ltlo 0 0x1CFBF 20) = .next t :=
  ⟨_, lines_mid _ _ _ _ (by decide), ⟨by decide, by decide⟩, rfl⟩

theorem test_witness_StepKeepsOneGateAtATime :
    ∃ t, (mid .ltlo 0 0x1CFBF 20).cfg.Ok ∧ (mid .ltlo 0 0x1CFBF 20).bench = none ∧ LinesByPhase (mid .ltlo 0 0x1CFBF 20) ∧
      ChipHasSentBits (mid .ltlo 0 0x1CFBF 20) ∧ OneGateAtATime (mid .ltlo 0 0x1CFBF 20) ∧
      step (mid .ltlo 0 0x1CFBF 20) = .next t :=
  ⟨_, default_ok, rfl, lines_mid _ _ _ _ (by decide), ⟨by decide, by decide⟩,
   ⟨by decide, by simp [mid, base, State.reset, commits, Event.committed]⟩, rfl⟩

theorem test_witness_StepKeepsTheHoldCounter :
    ∃ t, HoldCounted (mid .lthi 0 0x1CFBF 0) ∧ step (mid .lthi 0 0x1CFBF 0) = .next t := ⟨_, hold_mid _ _ _ _, rfl⟩

/-- In LTLO, where the commit comes; and in DSET. -/
theorem test_witness_LatchFollowsExactlyTwentyClocks :
    (∃ t, (mid .ltlo 0 0x1CFBF 20).pins.rst = false ∧ (mid .ltlo 0 0x1CFBF 20).bench = none ∧
      LinesByPhase (mid .ltlo 0 0x1CFBF 20) ∧ LatchAfterTwenty (mid .ltlo 0 0x1CFBF 20) ∧
      step (mid .ltlo 0 0x1CFBF 20) = .next t ∧ commits t.history ≠ commits (mid .ltlo 0 0x1CFBF 20).history) ∧
    (∃ t, LinesByPhase (mid .dset 16 0x5E6F0 3) ∧ LatchAfterTwenty (mid .dset 16 0x5E6F0 3) ∧
      step (mid .dset 16 0x5E6F0 3) = .next t) :=
  ⟨⟨_, by decide, rfl, lines_mid _ _ _ _ (by decide), by unfold LatchAfterTwenty; decide, rfl, by decide⟩,
   ⟨_, lines_mid _ _ _ _ (by decide), by unfold LatchAfterTwenty; decide, rfl⟩⟩

/-- V-P1's three ticks. -/
theorem test_witness_EachDueTickMakesOneAdvance : allDue [5, 10, 15] base := by
  refine ⟨by decide, by decide +kernel, by decide +kernel, trivial⟩

theorem test_witness_KthAdvanceShowsItsWord :
    base.gate = 0 ∧ base.supp = 0 ∧ base.sclk = false ∧ allDue ([5, 10] ++ [15]) base ∧ (2 : Fin 3).val = [5, 10].length % 3 :=
  ⟨rfl, rfl, rfl, test_witness_EachDueTickMakesOneAdvance, rfl⟩

theorem test_witness_AtomicTickWritesOnlyTheStatedState : due 5 base = true ∧ due 4 base = false := by decide

end Sys2Proof.Tests
end

/-! O44: the phases carry out the atomic TICK (R9, R135). A whole hold followed by the exit of its phase takes SETTLE_CYCLES cycles
whatever the host presents; the 62 holds of a transmission are chained cell by cell, and the states they pass through are the ones that
`bitCells` and `latchCell` give. -/

namespace Sys2Proof.Machine

/-! ## Cycles one after another -/

theorem runCycles_succ_of_step {s t : State} (h : step s = .next t) (n : Nat) : runCycles (n + 1) s = runCycles n t := by
  simp only [runCycles, h]

theorem runCycles_add_of_next {s t : State} {m : Nat} (h : runCycles m s = .next t) (n : Nat) :
    runCycles (m + n) s = runCycles n t := by
  induction m generalizing s with
  | zero =>
    obtain rfl : s = t := Host.Outcome.next.inj h
    rw [Nat.zero_add]
  | succ m ih =>
    rw [Nat.succ_add]
    cases hs : step s with
    | next u =>
      rw [runCycles_succ_of_step hs] at h ⊢
      exact ih h
    | fault r => simp [runCycles, hs] at h
    | refused r => simp [runCycles, hs] at h

/-! ## One cycle without reset -/

theorem pins_rst_of_noReset {s : State} (h : noReset s.host) : s.pins.rst = false := by
  cases hh : s.host with
  | nil => simp [State.pins, hh, HostCycle.quiet]
  | cons c rest => simpa [State.pins, hh] using h c (by simp [hh])

theorem noReset_hostAfter {s : State} (h : noReset s.host) : noReset (hostAfter s) := by
  unfold hostAfter
  cases hh : s.host with
  | nil => simp [noReset]
  | cons c rest =>
    rw [hh] at h
    obtain ⟨-, hrest⟩ := List.forall_mem_cons.mp h
    dsimp only
    split
    · exact List.forall_mem_cons.mpr ⟨rfl, hrest⟩
    · exact hrest

/-- Outside IDLE only the host's script moves on: a request for an INT operation waits (log 12). -/
theorem afterFetch_of_busy {s : State} (h : busy s = true) : afterFetch s = { s with host := hostAfter s } := by
  simp [afterFetch_eq, benchAfter, h]

theorem step_counts_hold {s : State} (hb : busy s = true) (hr : s.pins.rst = false) (hd : holdDone s = false) :
    step s = .next { s with dly := s.dly + 1, host := hostAfter s } := by
  simp [step, fetch, hb, hr, hd, countHold, afterFetch_of_busy hb]

theorem step_exits_phase {s : State} {i : Instr} (hb : busy s = true) (hr : s.pins.rst = false) (hd : holdDone s = true)
    (hi : decode (.seq (phaseCode s.ph)) = .ok i) : step s = exec i { s with host := hostAfter s } := by
  simp [step, fetch, hb, hr, hd, hi, afterFetch_of_busy hb]

/-- R181: the ready port takes the presented command off the script and carries it out. -/
theorem step_accepts_command {s : State} {c : HostCycle} {rest : List HostCycle} {w : CmdWord} (hh : s.host = c :: rest)
    (hr : c.rst = false) (hc : c.cmd = some w) (hp : s.ph = .idle) (hb : s.bench = none) :
    step s = exec (decodeCmd w) { s with host := rest } := by
  have hpins : s.pins = c := by simp [State.pins, hh]
  have hafter : afterFetch s = { s with host := rest } := by
    simp [afterFetch_eq, hostAfter, benchAfter, accepting, busy, hpins, hh, hr, hp, hb]
  simp [step, fetch, decode, busy, hpins, hr, hc, hp, hb, hafter]

theorem decodeCmd_tick (now : Millis) : decodeCmd (mkCmd 1#2 now) = .tick now := by
  simp [decodeCmd]

/-! ## Whole holds -/

/-- From `s`, `n` whole holds without reset end in `t`, whatever script the host plays, but for what is left of the script. -/
def EndsHolds (n : Nat) (s t : State) : Prop :=
  t.cfg = s.cfg ∧ ∀ h, noReset h → ∃ h', noReset h' ∧
    runCycles (n * s.cfg.settleCycles) { s with host := h } = .next { t with host := h' }

theorem EndsHolds.trans {m n : Nat} {s t u : State} (hst : EndsHolds m s t) (htu : EndsHolds n t u) :
    EndsHolds (m + n) s u := by
  obtain ⟨hcfg, hst⟩ := hst
  obtain ⟨hcfg', htu⟩ := htu
  refine ⟨hcfg'.trans hcfg, fun h hh => ?_⟩
  obtain ⟨h₁, hh₁, hrun₁⟩ := hst h hh
  obtain ⟨h₂, hh₂, hrun₂⟩ := htu h₁ hh₁
  exact ⟨h₂, hh₂, by rw [Nat.add_mul, runCycles_add_of_next hrun₁, ← hcfg, hrun₂]⟩

/-- Until the hold's last cycle, cycles without reset count DLY and nothing else. -/
theorem runCycles_counts_hold (n : Nat) (s : State) (hp : s.ph ≠ .idle) (hd : s.dly + n < s.cfg.settleCycles)
    (hh : noReset s.host) :
    ∃ h', noReset h' ∧ runCycles n s = .next { s with dly := s.dly + n, host := h' } := by
  induction n generalizing s with
  | zero => exact ⟨s.host, hh, rfl⟩
  | succ n ih =>
    have hstep := step_counts_hold (by simpa [busy] using hp) (pins_rst_of_noReset hh)
      (by simp only [holdDone, decide_eq_false_iff_not]; omega)
    obtain ⟨h', hh', hrun⟩ := ih { s with dly := s.dly + 1, host := hostAfter s } hp (by dsimp only; omega)
      (noReset_hostAfter hh)
    exact ⟨h', hh', by rw [runCycles_succ_of_step hstep, hrun, Nat.add_right_comm, Nat.add_assoc]⟩

/-- A hold that begins in `s` and the exit of its phase. -/
theorem endsHolds_one {s t : State} {i : Instr} (hp : s.ph ≠ .idle) (hd : s.dly = 0) (hS : 1 ≤ s.cfg.settleCycles)
    (hi : decode (.seq (phaseCode s.ph)) = .ok i) (hcfg : t.cfg = s.cfg)
    (hx : ∀ d h, exec i { s with dly := d, host := h } = .next { t with host := h }) : EndsHolds 1 s t := by
  refine ⟨hcfg, fun h hh => ?_⟩
  obtain ⟨h₁, hh₁, hrun⟩ := runCycles_counts_hold (s.cfg.settleCycles - 1) { s with host := h } hp
    (by dsimp only; omega) hh
  have hstep := step_exits_phase (s := { s with dly := s.dly + (s.cfg.settleCycles - 1), host := h₁ })
    (by simpa [busy] using hp) (pins_rst_of_noReset hh₁) (by simp only [holdDone, decide_eq_true_eq]; omega) hi
  rw [hx] at hstep
  refine ⟨_, noReset_hostAfter (s := { s with dly := s.dly + (s.cfg.settleCycles - 1), host := h₁ }) hh₁, ?_⟩
  calc runCycles (1 * s.cfg.settleCycles) { s with host := h }
      = runCycles (s.cfg.settleCycles - 1 + 1) { s with host := h } := by rw [Nat.one_mul, Nat.sub_add_cancel hS]
    _ = runCycles 1 { s with dly := s.dly + (s.cfg.settleCycles - 1), host := h₁ } := runCycles_add_of_next hrun 1
    _ = _ := runCycles_succ_of_step hstep 0

/-! ## The exits of the phases (R121) as whole holds -/

/-- `s` at the start of phase `p` with bit `i` current. -/
def atPhase (p : Phase) (i : Fin 20) (s : State) : State := enterPhase p { s with biti := i }

section PhaseExits
variable (s : State) (i : Fin 20) (hS : 1 ≤ s.cfg.settleCycles)
include hS

theorem dset_endsHold : EndsHolds 1 (atPhase .dset i s) (atPhase .ckhi i (lineWrite .sclk true (hold s))) :=
  endsHolds_one (i := .phDset) (by simp [atPhase]) rfl hS (decode_phaseCode .dset)
    (by simp [atPhase, lineWrite_sclk_high_eq])
    (fun d h => by simp [atPhase, exec, execPhDset, enterPhase, lineWrite_sclk_high_eq, hold, State.log])

theorem ckhi_endsHold : EndsHolds 1 (atPhase .ckhi i s) (atPhase .cklo i (lineWrite .sclk false (hold s))) :=
  endsHolds_one (i := .phCkhi) (by simp [atPhase]) rfl hS (decode_phaseCode .ckhi) rfl (fun _ _ => rfl)

theorem cklo_endsHold_next_bit (n : Nat) (hn : n + 1 < 20) :
    EndsHolds 1 (atPhase .cklo ⟨n + 1, hn⟩ s)
      (atPhase .dset ⟨n, by omega⟩ (lineWrite .data (serialBit s.shw n) (hold s))) :=
  endsHolds_one (i := .phCklo) (by simp [atPhase]) rfl hS (decode_phaseCode .cklo) rfl (fun _ _ => rfl)

theorem cklo_endsHold_last_bit :
    EndsHolds 1 (atPhase .cklo 0 s) (atPhase .ltlo 0 (lineWrite .latch false (hold s))) :=
  endsHolds_one (i := .phCklo) (by simp [atPhase]) rfl hS (decode_phaseCode .cklo) rfl (fun _ _ => rfl)

theorem ltlo_endsHold : EndsHolds 1 (atPhase .ltlo i s) (atPhase .lthi i (lineWrite .latch true (hold s))) :=
  endsHolds_one (i := .phLtlo) (by simp [atPhase]) rfl hS (decode_phaseCode .ltlo)
    (by simp [atPhase, lineWrite_latch_high_eq])
    (fun d h => by simp [atPhase, exec, execPhLtlo, enterPhase, lineWrite_latch_high_eq, hold, State.log])

theorem lthi_endsHold : EndsHolds 1 (atPhase .lthi i s) (atPhase .idle i (completeAdvance s.tnow (hold s))) :=
  endsHolds_one (i := .phLthi) (by simp [atPhase]) rfl hS (decode_phaseCode .lthi) rfl (fun _ _ => rfl)

end PhaseExits

/-! ## The cells of a transmission -/

/-- What happens between DATA's write and the last hold of a bit cell: SCLK rises, then falls. -/
def clockPulse (s : State) : State := lineWrite .sclk false (hold (lineWrite .sclk true (hold s)))

theorem bitCell_eq_clockPulse (w : ShiftWord) (i : Nat) (s : State) :
    bitCell w i s = hold (clockPulse (lineWrite .data (serialBit w i) s)) := rfl

@[simp] theorem clockPulse_cfg (s : State) : (clockPulse s).cfg = s.cfg := by simp [clockPulse, lineWrite_sclk_high_eq]

@[simp] theorem clockPulse_shw (s : State) : (clockPulse s).shw = s.shw := by simp [clockPulse, lineWrite_sclk_high_eq]

theorem clockPulse_endsHolds (s : State) (i : Fin 20) (hS : 1 ≤ s.cfg.settleCycles) :
    EndsHolds 2 (atPhase .dset i s) (atPhase .cklo i (clockPulse s)) :=
  (dset_endsHold s i hS).trans (ckhi_endsHold _ i (by simpa [lineWrite_sclk_high_eq] using hS))

/-- The bit cells `n` down to `0` of SHW, three holds each, from DATA's write for bit `n` to LATCH's fall. -/
theorem bitCells_endsHolds (n : Nat) (hn : n < 20) (s : State) (hS : 1 ≤ s.cfg.settleCycles) :
    EndsHolds (3 * n + 3) (atPhase .dset ⟨n, hn⟩ (lineWrite .data (serialBit s.shw n) s))
      (atPhase .ltlo 0 (lineWrite .latch false (bitCells s.shw (n + 1) s))) := by
  induction n generalizing s with
  | zero =>
    have hpulse := clockPulse_endsHolds (lineWrite .data (serialBit s.shw 0) s) 0 hS
    exact hpulse.trans (cklo_endsHold_last_bit _ (by simpa using hS))
  | succ n ih =>
    have hpulse := clockPulse_endsHolds (lineWrite .data (serialBit s.shw (n + 1)) s) ⟨n + 1, hn⟩ hS
    have hnext := cklo_endsHold_next_bit (clockPulse (lineWrite .data (serialBit s.shw (n + 1)) s)) (by simpa using hS) n hn
    have hrest := ih (by omega) (bitCell s.shw (n + 1) s) (by simpa [bitCell_eq_clockPulse] using hS)
    simp only [bitCell_eq_clockPulse, hold_shw, clockPulse_shw, lineWrite_data_shw] at hnext hrest
    have hall := (hpulse.trans hnext).trans hrest
    rwa [show 2 + 1 + (3 * n + 3) = 3 * (n + 1) + 3 by omega] at hall

/-- The bit cells leave the configuration, the phase and the tick's sample. -/
theorem bitCells_frame (w : ShiftWord) (n : Nat) (s : State) :
    (bitCells w n s).cfg = s.cfg ∧ (bitCells w n s).ph = s.ph ∧ (bitCells w n s).tnow = s.tnow := by
  induction n generalizing s with
  | zero => exact ⟨rfl, rfl, rfl⟩
  | succ n ih => simp only [bitCells, ih, bitCell_eq, and_self]

/-- No bit cell reads TNOW. -/
theorem bitCells_with_tnow (w : ShiftWord) (n : Nat) (now : Millis) (s : State) :
    bitCells w n { s with tnow := now } = { bitCells w n s with tnow := now } := by
  induction n generalizing s with
  | zero => rfl
  | succ n ih => simp only [bitCells, ← ih, bitCell_eq]

theorem latchCell_endsHolds (s : State) (hS : 1 ≤ s.cfg.settleCycles) :
    EndsHolds 2 (atPhase .ltlo 0 (lineWrite .latch false s))
      (atPhase .idle 0 (completeAdvance s.tnow (latchCell s))) := by
  have hrise := ltlo_endsHold (lineWrite .latch false s) 0 hS
  have hlast := lthi_endsHold (lineWrite .latch true (hold (lineWrite .latch false s))) 0
    (by simpa [lineWrite_latch_high_eq] using hS)
  have htnow : (lineWrite .latch true (hold (lineWrite .latch false s))).tnow = s.tnow := by
    simp [lineWrite_latch_high_eq]
  rw [htnow] at hlast
  exact hrise.trans hlast

/-- The 62 holds of a transmission (R131): twenty bit cells and the latch cell. -/
theorem transmission_endsHolds (s : State) (hS : 1 ≤ s.cfg.settleCycles) :
    EndsHolds 62 (atPhase .dset 19 (lineWrite .data (serialBit s.shw 19) s))
      (atPhase .idle 0 (completeAdvance s.tnow (latchCell (bitCells s.shw 20 s)))) := by
  obtain ⟨hcfg, -, htnow⟩ := bitCells_frame s.shw 20 s
  have hlatch := latchCell_endsHolds (bitCells s.shw 20 s) (by rwa [hcfg])
  rw [htnow] at hlatch
  exact (bitCells_endsHolds 19 (by omega) s hS).trans hlatch

/-! ## The two levels of TICK -/

/-- The state of an advance when its transmission begins: steps 1 to 4 are done, SHW and TNOW are loaded. -/
def loadAdvance (now : Millis) (s : State) : State := { beginAdvance s with shw := advanceWord s, tnow := now }

/-- The phase level starts a due TICK in DSET for bit 19. -/
theorem execTick_of_due {s : State} {now : Millis} (hp : s.ph = .idle) (hd : due now s = true) :
    execTick now s =
      .next (atPhase .dset 19 (lineWrite .data (serialBit (loadAdvance now s).shw 19) (loadAdvance now s))) := by
  have hb : busy s = false := by simp [busy, hp]
  simp only [execTick, hb, hd, if_true, Bool.false_eq_true, if_false]
  rfl

/-- TNOW can be loaded before the transmission of the operation level as well as after it. -/
theorem transmitWord_with_tnow (w : ShiftWord) (now : Millis) (s : State) :
    { transmitWord w s with tnow := now } =
      { latchCell (bitCells w 20 { s with shw := w, tnow := now }) with biti := 0, dly := 0 } := by
  have hcells := bitCells_with_tnow w 20 now { s with shw := w }
  dsimp only at hcells
  simp only [transmitWord, hcells, latchCell_eq]

/-- The operation level ends where the phases do: BITI and DLY are 0 (log 16), and PH is still IDLE. -/
theorem tickAtomic_of_due {s : State} {now : Millis} (hp : s.ph = .idle) (hd : due now s = true) :
    tickAtomic now s = atPhase .idle 0
      (completeAdvance now (latchCell (bitCells (advanceWord s) 20 (loadAdvance now s)))) := by
  obtain ⟨-, hph, -⟩ := bitCells_frame (advanceWord s) 20 (loadAdvance now s)
  have hidle : (latchCell (bitCells (advanceWord s) 20 (loadAdvance now s))).ph = .idle := by
    simp only [latchCell_eq, hph]
    exact hp
  calc tickAtomic now s
      = completeAdvance now { transmitWord (advanceWord s) (beginAdvance s) with tnow := now } := by
        simp only [tickAtomic, hd, if_true, completeAdvance]
    _ = completeAdvance now
          { latchCell (bitCells (advanceWord s) 20 (loadAdvance now s)) with biti := 0, dly := 0 } := by
        rw [transmitWord_with_tnow]; rfl
    _ = _ := by simp only [atPhase, enterPhase, completeAdvance, hidle]

/-- Settles O44: the accepted TICK starts the transmission, whose 62 holds go through the cells of the operation level. -/
theorem phasesCarryOutTheAtomicTick : Obligations.PhasesCarryOutTheAtomicTick := by
  unfold Obligations.PhasesCarryOutTheAtomicTick
  intro s c rest now hS _ hp hb hh hr hc hrest hd
  have haccept : step s = execTick now { s with host := rest } := by
    rw [step_accepts_command hh hr hc hp hb, decodeCmd_tick]
    rfl
  rw [execTick_of_due (s := { s with host := rest }) hp hd] at haccept
  obtain ⟨-, hrun⟩ := transmission_endsHolds (loadAdvance now s) hS
  obtain ⟨h, -, hrun⟩ := hrun rest hrest
  refine ⟨h, ?_⟩
  rw [Nat.add_comm, runCycles_succ_of_step haccept, tickAtomic_of_due hp hd]
  exact hrun

end Sys2Proof.Machine

/-! O49, O19, O28, O47, O50, O51, O11, O52: who writes the state, and the invariants that every step keeps (R20 to R29, R33, R38,
R39). What an operation can do is said once, by `Effect`; what a step can do follows, by `step_effect`; each invariant is then a case
analysis over the effects. -/

namespace Sys2Proof.Machine

/-! ## RESET and TRANSMIT as whole operations -/

/-- RESET (R186), written out: LATCH rises, and the chip commits, only if LATCH was 0. -/
theorem resetBlock_eq (s : State) :
    resetBlock s =
      { s with
        gate := 0, supp := 0, tlast := 0, ph := .idle, biti := 0, shw := 0, tnow := 0, dly := 0
        data := false, sclk := false, latch := true
        xout := if s.latch then s.xout else s.xsr
        history := s.history ++ [.write .data false, .write .sclk false, .write .latch true]
          ++ (if s.latch then [] else [.commit s.xsr]) } := by
  simp [resetBlock_line_order, lineWrite_latch_high_eq, lineWrite_data_eq, lineWrite_sclk_low_eq]

/-- A bit cell writes the lines, XSR and events, and nothing else. -/
theorem bitCell_frame (w : ShiftWord) (i : Nat) (s : State) :
    ∃ x l, bitCell w i s = { s with data := serialBit w i, sclk := false, xsr := x, history := s.history ++ l } :=
  ⟨_, _, bitCell_eq w i s⟩

/-- The bit cells down to bit 0: the lines as the last cell leaves them, XSR, and events; nothing else. -/
theorem bitCells_succ_frame (w : ShiftWord) (n : Nat) (s : State) :
    ∃ x l, bitCells w (n + 1) s =
      { s with data := serialBit w 0, sclk := false, xsr := x, history := s.history ++ l } := by
  induction n generalizing s with
  | zero => exact bitCell_frame w 0 s
  | succ n ih =>
    obtain ⟨_, l₁, h₁⟩ := bitCell_frame w (n + 1) s
    obtain ⟨x, l, h⟩ := ih (bitCell w (n + 1) s)
    exact ⟨x, l₁ ++ l, by rw [bitCells, h, h₁]; simp only [List.append_assoc]⟩

/-- TRANSMIT as one step (R130): besides SHW, BITI, DLY, the lines and the chip's registers, nothing changes; the history ends with
the latch cell. -/
theorem transmitWord_eq (w : ShiftWord) (s : State) :
    ∃ x l, transmitWord w s =
      { s with
        shw := w, biti := 0, dly := 0, data := serialBit w 0, sclk := false, latch := true, xsr := x, xout := x
        history := s.history ++ l ++ [.write .latch false, .hold, .write .latch true, .commit x, .hold] } := by
  obtain ⟨x, l, h⟩ := bitCells_succ_frame w 19 { s with shw := w }
  exact ⟨x, l, by rw [transmitWord, h, latchCell_eq]⟩

/-! ## What an operation can do -/

/-- The effect of an operation: none, which an operation that is not selected, a TICK that is not due and a BUFWR beyond the buffer
have too; or its own, where it is selected. -/
inductive Effect : Instr → State → State → Prop where
  | none {i : Instr} {s : State} (hi : i ≠ .reset) : Effect i s s
  | reset {s : State} : Effect .reset s (resetBlock s)
  | tick {now : Millis} {s : State} (hp : s.ph = .idle) :
      Effect (.tick now) s (startTransmission (advanceWord s) now (beginAdvance s))
  | bufwr {idx : BitVec 3} {code : Byte} {s : State} (hi : idx.toNat < 6) :
      Effect (.bufwr idx code) s { s with buf := s.buf.write idx.toNat code }
  | enc {c : Byte} {s : State} : Effect (.enc c) s (s.noteReads [.rom c (segTable s.cfg c)])
  | transmit (w : ShiftWord) {s : State} (hp : s.ph = .idle) : Effect (.transmit w) s (transmitWord w s)
  | dset {s : State} (hp : s.ph = .dset) : Effect .phDset s (enterPhase .ckhi (lineWrite .sclk true (hold s)))
  | ckhi {s : State} (hp : s.ph = .ckhi) : Effect .phCkhi s (enterPhase .cklo (lineWrite .sclk false (hold s)))
  | ckloNextBit {s : State} (hp : s.ph = .cklo) (hb : 0 < s.biti.val) :
      Effect .phCklo s
        (enterPhase .dset (lineWrite .data (serialBit s.shw (prevBit s.biti).val) { hold s with biti := prevBit s.biti }))
  | ckloLastBit {s : State} (hp : s.ph = .cklo) (hb : s.biti = 0) :
      Effect .phCklo s (enterPhase .ltlo (lineWrite .latch false (hold s)))
  | ltlo {s : State} (hp : s.ph = .ltlo) : Effect .phLtlo s (enterPhase .lthi (lineWrite .latch true (hold s)))
  | lthi {s : State} (hp : s.ph = .lthi) : Effect .phLthi s (enterPhase .idle (completeAdvance s.tnow (hold s)))

theorem ph_eq_idle_of_not_busy {s : State} (h : ¬ busy s = true) : s.ph = .idle := by
  simpa [busy] using h

/-- The shape of a phase's exit: its own effect in its phase, none elsewhere. -/
theorem answers_effect_of_guard {i : Instr} {s t : State} {c : Prop} [Decidable c] (hi : i ≠ .reset)
    (hx : exec i s = if c then .next t else .next s) (ht : c → Effect i s t) : ∃ u, exec i s = .next u ∧ Effect i s u := by
  by_cases hc : c
  · exact ⟨t, by rw [hx, if_pos hc], ht hc⟩
  · exact ⟨s, by rw [hx, if_neg hc], .none hi⟩

/-- Every operation answers, with one of its effects. -/
theorem exec_answers_effect (i : Instr) (s : State) : ∃ t, exec i s = .next t ∧ Effect i s t := by
  cases i with
  | reset => exact ⟨_, rfl, .reset⟩
  | nop | rsvd3 | phIdle => exact ⟨_, rfl, .none (by simp)⟩
  | enc c => exact ⟨_, rfl, .enc⟩
  | tick now =>
    by_cases hb : busy s = true
    · exact ⟨_, if_pos hb, .none (by simp)⟩
    · by_cases hd : due now s = true
      · exact ⟨_, (if_neg hb).trans (if_pos hd), .tick (ph_eq_idle_of_not_busy hb)⟩
      · exact ⟨_, (if_neg hb).trans (if_neg hd), .none (by simp)⟩
  | bufwr idx code =>
    by_cases hb : busy s = true
    · exact ⟨_, if_pos hb, .none (by simp)⟩
    · by_cases hi : idx.toNat ≤ 5
      · exact ⟨_, (if_neg hb).trans (if_pos hi), .bufwr (Nat.lt_succ_of_le hi)⟩
      · exact ⟨_, (if_neg hb).trans (if_neg hi), .none (by simp)⟩
  | transmit w =>
    by_cases hb : busy s = true
    · exact ⟨_, if_pos hb, .none (by simp)⟩
    · exact ⟨_, if_neg hb, .transmit w (ph_eq_idle_of_not_busy hb)⟩
  | phDset => exact answers_effect_of_guard (by simp) rfl .dset
  | phCkhi => exact answers_effect_of_guard (by simp) rfl .ckhi
  | phCklo =>
    by_cases hp : s.ph = .cklo
    · by_cases hb : 0 < s.biti.val
      · exact ⟨_, (if_pos hp).trans (if_pos hb), .ckloNextBit hp hb⟩
      · exact ⟨_, (if_pos hp).trans (if_neg hb), .ckloLastBit hp (Fin.ext (Nat.eq_zero_of_not_pos hb))⟩
    · exact ⟨_, if_neg hp, .none (by simp)⟩
  | phLtlo => exact answers_effect_of_guard (by simp) rfl .ltlo
  | phLthi => exact answers_effect_of_guard (by simp) rfl .lthi

theorem effect_of_exec {i : Instr} {s t : State} (h : exec i s = .next t) : Effect i s t := by
  obtain ⟨u, hu, he⟩ := exec_answers_effect i s
  obtain rfl := Host.Outcome.next.inj (hu.symm.trans h)
  exact he

/-! ## What a step can do -/

theorem decodeCmd_ne_reset (w : CmdWord) : decodeCmd w ≠ .reset := by
  unfold decodeCmd
  split_ifs <;> simp

theorem decodeCmd_ne_transmit (w : CmdWord) (v : ShiftWord) : decodeCmd w ≠ .transmit v := by
  unfold decodeCmd
  split_ifs <;> simp

/-- A step is the effect of one operation once the host's script has moved on, or a counted cycle of a hold. The operation is RESET
only if the pin is high, and TRANSMIT only if it was requested (log 12). -/
theorem step_effect {s t : State} (h : step s = .next t) :
    (∃ i, Effect i (afterFetch s) t ∧ (i = .reset → s.pins.rst = true) ∧ ∀ w, i = .transmit w → s.bench = some (.transmit w)) ∨
    (s.ph ≠ .idle ∧ holdDone s = false ∧ t = countHold (afterFetch s)) := by
  rcases step_cases h with ⟨hr, rfl⟩ | ⟨-, hp, hd, rfl⟩ | ⟨-, -, hx⟩ | ⟨-, -, hx⟩
  · exact .inl ⟨.reset, .reset, fun _ => hr, by simp⟩
  · exact .inr ⟨hp, hd, rfl⟩
  · rcases hx with ⟨-, hx⟩ | ⟨-, hx⟩ | ⟨-, hx⟩ | ⟨-, hx⟩ | ⟨-, hx⟩
    · exact .inl ⟨.phDset, effect_of_exec hx, by simp, by simp⟩
    · exact .inl ⟨.phCkhi, effect_of_exec hx, by simp, by simp⟩
    · exact .inl ⟨.phCklo, effect_of_exec hx, by simp, by simp⟩
    · exact .inl ⟨.phLtlo, effect_of_exec hx, by simp, by simp⟩
    · exact .inl ⟨.phLthi, effect_of_exec hx, by simp, by simp⟩
  · rcases hx with ⟨c, -, hx⟩ | ⟨w, hb, hx⟩ | ⟨w, -, -, hx⟩ | ⟨-, -, rfl⟩
    · exact .inl ⟨.enc c, effect_of_exec hx, by simp, by simp⟩
    · exact .inl ⟨.transmit w, effect_of_exec hx, by simp, fun v hv => by cases hv; exact hb⟩
    · exact .inl ⟨decodeCmd w, effect_of_exec hx, fun hi => absurd hi (decodeCmd_ne_reset w),
        fun v hv => absurd hv (decodeCmd_ne_transmit w v)⟩
    · exact .inl ⟨.phIdle, .none (by simp), by simp, by simp⟩

/-- What no move of the host's script, no effect and no counted cycle breaks, no step breaks. -/
theorem step_keeps {P : State → Prop} (hscript : ∀ s h b, P s → P { s with host := h, bench := b })
    (heffect : ∀ i s t, Effect i s t → P s → P t)
    (hcount : ∀ s, s.ph ≠ .idle → holdDone s = false → P s → P (countHold s))
    {s t : State} (h : step s = .next t) (hs : P s) : P t := by
  have hs' : P (afterFetch s) := hscript s _ _ hs
  rcases step_effect h with ⟨i, he, -⟩ | ⟨hp, hd, rfl⟩
  · exact heffect i _ t he hs'
  · exact hcount _ hp hd hs'

/-! ## Who writes what -/

section Effects
variable {i : Instr} {s t : State}

/-- The configuration, the host's script and the model's request are written by no operation. -/
theorem Effect.frame (h : Effect i s t) : t.cfg = s.cfg ∧ t.host = s.host ∧ t.bench = s.bench := by
  cases h with
  | transmit w => obtain ⟨x, l, hw⟩ := transmitWord_eq w s; rw [hw]; exact ⟨rfl, rfl, rfl⟩
  | _ => simp [resetBlock_eq, startTransmission_eq, lineWrite_sclk_high_eq, lineWrite_latch_high_eq]

/-- R33: BUF is written by BUFWR only. -/
theorem Effect.buf_cases (h : Effect i s t) :
    t.buf = s.buf ∨ ∃ (idx : BitVec 3) (code : Byte), idx.toNat < 6 ∧ t.buf = s.buf.write idx.toNat code := by
  cases h with
  | bufwr hi => exact .inr ⟨_, _, hi, rfl⟩
  | transmit w => obtain ⟨x, l, hw⟩ := transmitWord_eq w s; rw [hw]; exact .inl rfl
  | _ => simp [resetBlock_eq, startTransmission_eq, lineWrite_sclk_high_eq, lineWrite_latch_high_eq]

/-- R28: an operation that leaves the hold's count leaves the phase; every other one sets the count to 0. -/
theorem Effect.dly_cases (h : Effect i s t) : t.dly = 0 ∨ (t.dly = s.dly ∧ t.ph = s.ph) := by
  cases h with
  | none | bufwr | enc => exact .inr ⟨rfl, rfl⟩
  | transmit w => obtain ⟨x, l, hw⟩ := transmitWord_eq w s; rw [hw]; exact .inl rfl
  | reset => rw [resetBlock_eq]; exact .inl rfl
  | _ => exact .inl rfl

/-- R25: TRANSMIT apart, SHW is loaded with the word of an advance or cleared by RESET. -/
theorem Effect.shw_cases (h : Effect i s t) (hi : ∀ w, i ≠ .transmit w) : t.shw = s.shw ∨ t.shw = 0 ∨ t.shw = advanceWord s := by
  cases h with
  | tick => exact .inr (.inr rfl)
  | reset => rw [resetBlock_eq]; exact .inr (.inl rfl)
  | transmit => exact absurd rfl (hi _)
  | _ => simp [lineWrite_sclk_high_eq, lineWrite_latch_high_eq]

/-- R63: TRANSMIT apart, a word is committed only where LATCH was 0, and it is what XSR holds. -/
theorem Effect.commits_cases (h : Effect i s t) (hi : ∀ w, i ≠ .transmit w) :
    commits t.history = commits s.history ∨
      (s.latch = false ∧ commits t.history = commits s.history ++ [s.xsr]) := by
  cases h with
  | transmit => exact absurd rfl (hi _)
  | reset | ltlo =>
    cases hl : s.latch <;>
      simp [resetBlock_eq, lineWrite_latch_high_eq, hl, commits, List.filterMap_cons, Event.committed]
  | dset => cases hc : s.sclk <;> simp [lineWrite_sclk_high_eq, hc, commits, Event.committed]
  | _ => simp [startTransmission_eq, commits, Event.committed]

end Effects

/-- Settles O28, by the effect of each operation. -/
theorem onlyTheStatedOperationsWriteTheRegisters : Obligations.OnlyTheStatedOperationsWriteTheRegisters := by
  unfold Obligations.OnlyTheStatedOperationsWriteTheRegisters
  intro i s t h hi
  cases effect_of_exec h with
  | reset => exact absurd rfl hi
  | transmit w => obtain ⟨x, l, hw⟩ := transmitWord_eq w s; simp [hw]
  | _ => simp [startTransmission_eq, lineWrite_sclk_high_eq, lineWrite_latch_high_eq]

/-- Settles O11: the configuration is in the frame of every operation. -/
theorem configurationIsFixed : Obligations.ConfigurationIsFixed := by
  unfold Obligations.ConfigurationIsFixed
  intro s t h
  refine step_keeps (P := fun u => u.cfg = s.cfg) (fun _ _ _ hu => hu) (fun i u v he hu => ?_) (fun _ _ _ hu => hu) h rfl
  obtain ⟨hcfg, -⟩ := he.frame
  exact hcfg.trans hu

/-- Settles O19: BUFWR writes one of the six entries, and nothing else writes BUF. -/
theorem stepKeepsBufWellFormed : Obligations.StepKeepsBufWellFormed := by
  unfold Obligations.StepKeepsBufWellFormed
  intro s t hs h
  refine step_keeps (P := fun u => u.buf.wf) (fun _ _ _ hu => hu) (fun i u v he hu => ?_) (fun _ _ _ hu => hu) h hs
  rcases he.buf_cases with hbuf | ⟨idx, code, hidx, hbuf⟩
  · rwa [hbuf]
  · rw [hbuf]; exact Memory.wf_write hu code hidx

/-! ## The hold counter -/

theorem Effect.keeps_holdCounted {i : Instr} {s t : State} (h : Effect i s t) (hs : HoldCounted s) : HoldCounted t := by
  obtain ⟨hbelow, hrest⟩ := hs
  obtain ⟨hcfg, -⟩ := h.frame
  rcases h.dly_cases with hd | ⟨hd, hp⟩
  · exact ⟨by rw [hd, hcfg]; omega, fun _ => hd⟩
  · exact ⟨by rwa [hd, hcfg], fun hi => by rw [hd]; exact hrest (hp ▸ hi)⟩

/-- Settles O50: an operation starts the next hold at 0, and a counted cycle is not the hold's last. -/
theorem stepKeepsTheHoldCounter : Obligations.StepKeepsTheHoldCounter := by
  unfold Obligations.StepKeepsTheHoldCounter
  intro s t hs h
  refine step_keeps (fun u _ _ hu => ⟨hu.below, hu.rest⟩) (fun i u v he hu => he.keeps_holdCounted hu)
    (fun u hp hd _ => ⟨?_, fun hi => absurd hi hp⟩) h hs
  simpa [holdDone] using hd

/-! ## The line levels (R38 item 4) -/

theorem Effect.keeps_lines {i : Instr} {s t : State} (h : Effect i s t) (hs : LinesByPhase s) : LinesByPhase t := by
  obtain ⟨hdata, hsclk, hlatch, hrest⟩ := hs
  cases h with
  | none | bufwr | enc => exact ⟨hdata, hsclk, hlatch, hrest⟩
  | reset => rw [resetBlock_eq]; exact ⟨by simp [serialBit], rfl, rfl, fun _ => rfl⟩
  | tick hp => constructor <;> simp [startTransmission_eq, hsclk, hlatch, hp, bne]
  | transmit w hp =>
    obtain ⟨x, l, hw⟩ := transmitWord_eq w s
    rw [hw]
    exact ⟨rfl, by simp [hp], by simp [hp], fun _ => rfl⟩
  | dset hp => constructor <;> simp [lineWrite_sclk_high_eq, hdata, hlatch, hp, bne]
  | ckhi hp => constructor <;> simp [hdata, hlatch, hp, bne]
  | ckloNextBit hp hb => constructor <;> simp [hsclk, hlatch, hp, bne]
  | ckloLastBit hp hb => constructor <;> simp [hdata, hsclk, hp, hb]
  | ltlo hp => constructor <;> simp [lineWrite_latch_high_eq, hdata, hsclk, hrest, hp]
  | lthi hp => constructor <;> simp [hdata, hsclk, hlatch, hrest, hp, bne]

/-- Settles O47: each operation leaves the lines as the phase that it enters asks. -/
theorem stepKeepsLinesByPhase : Obligations.StepKeepsLinesByPhase := by
  unfold Obligations.StepKeepsLinesByPhase
  intro s t hs h
  exact step_keeps (fun u _ _ hu => ⟨hu.data, hu.sclk, hu.latch, hu.rest⟩) (fun i u v he hu => he.keeps_lines hu)
    (fun u _ _ hu => ⟨hu.data, hu.sclk, hu.latch, hu.rest⟩) h hs

/-- LATCH is low in LTLO only. -/
theorem LinesByPhase.ph_of_latch_low {s : State} (hs : LinesByPhase s) (hl : s.latch = false) : s.ph = .ltlo := by
  simpa [hl] using hs.latch

/-! ## Twenty clock edges before a latch edge (R38 item 6) -/

@[simp] theorem shiftsSinceCommit_append (h l : List Event) :
    shiftsSinceCommit (h ++ l) = l.foldl countShift (shiftsSinceCommit h) := List.foldl_append

theorem Effect.keeps_latchAfterTwenty {i : Instr} {s t : State} (h : Effect i s t) (hi : i ≠ .reset) (hs : LinesByPhase s)
    (hn : LatchAfterTwenty s) : LatchAfterTwenty t := by
  obtain ⟨-, hsclk, hlatch, -⟩ := hs
  unfold LatchAfterTwenty at hn ⊢
  cases h with
  | none | bufwr | enc => exact hn
  | reset => exact absurd rfl hi
  | tick hp => simpa [startTransmission_eq, bitsSent, countShift, hp] using hn
  | transmit w hp =>
    obtain ⟨x, l, hw⟩ := transmitWord_eq w s
    simp [hw, bitsSent, countShift, hp]
  | dset hp =>
    have := s.biti.isLt
    simp [lineWrite_sclk_high_eq, bitsSent, countShift, hp, hsclk] at hn ⊢
    omega
  | ckhi hp => simpa [bitsSent, countShift, hp] using hn
  | ckloNextBit hp hb =>
    simp [bitsSent, countShift, prevBit, hp] at hn ⊢
    omega
  | ckloLastBit hp hb => simpa [bitsSent, countShift, hp, hb] using hn
  | ltlo hp => simp [lineWrite_latch_high_eq, countShift, hlatch, hp]
  | lthi hp => simpa [bitsSent, countShift, hp] using hn

/-- In LTLO the chip has taken all twenty bits. -/
theorem LatchAfterTwenty.eq_twenty {s : State} (hn : LatchAfterTwenty s) (hp : s.ph = .ltlo) :
    shiftsSinceCommit s.history = 20 := by
  simpa [LatchAfterTwenty, bitsSent, hp] using hn

/-- Settles O51: only the exit of DSET adds a clock edge, and only the exit of LTLO a latch edge. -/
theorem latchFollowsExactlyTwentyClocks : Obligations.LatchFollowsExactlyTwentyClocks := by
  unfold Obligations.LatchFollowsExactlyTwentyClocks
  refine ⟨fun s t hr hs hn h => ?_, fun s t hr hb hs hn h hc => ?_⟩
  · rcases step_effect h with ⟨i, he, hreset, -⟩ | ⟨-, -, rfl⟩
    · have hi : i ≠ .reset := fun hi => by simp [hreset hi] at hr
      exact he.keeps_latchAfterTwenty hi ⟨hs.data, hs.sclk, hs.latch, hs.rest⟩ hn
    · exact hn
  · rcases step_effect h with ⟨i, he, -, htransmit⟩ | ⟨-, -, rfl⟩
    · rcases he.commits_cases (fun w hw => by simp [htransmit w hw] at hb) with hsame | ⟨hl, -⟩
      · exact absurd hsame hc
      · exact hn.eq_twenty (hs.ph_of_latch_low hl)
    · exact absurd rfl hc

/-! ## One gate at a time (R38 item 5) -/

theorem oneHot_iff {w : ShiftWord} : oneHot w = true ↔ ∃ i < 20, w = BitVec.twoPow 20 i := by
  simp [oneHot]

theorem oneHot_and_eq_zero {v w : ShiftWord} (hv : oneHot v = true) (hw : oneHot w = true) (hne : v ≠ w) : v &&& w = 0 := by
  obtain ⟨i, hi, rfl⟩ := oneHot_iff.mp hv
  obtain ⟨j, hj, rfl⟩ := oneHot_iff.mp hw
  have hij : i ≠ j := fun hij => hne (by rw [hij])
  simp [BitVec.and_twoPow, BitVec.getLsbD_twoPow, hij]

theorem and_lanes_eq_self {x : ShiftWord} (hx : x.toNat < 2 ^ 16) : x &&& 0x0FFFF = x := by
  apply BitVec.eq_of_toNat_eq
  rw [BitVec.toNat_and]
  exact Nat.and_two_pow_sub_one_of_lt_two_pow hx

/-- The two digits of a word stand in bits 15:0. -/
theorem digits_toNat_lt (lo hi : Byte) : (hi.setWidth 20 <<< 8 ||| lo.setWidth 20 : ShiftWord).toNat < 2 ^ 16 := by
  have := lo.isLt
  have := hi.isLt
  rw [BitVec.toNat_or]
  apply Nat.or_lt_two_pow
  · simp [Nat.shiftLeft_eq]; omega
  · simp; omega

theorem digits_and_eq_zero (lo hi : Byte) {m : ShiftWord} (hm : m &&& 0x0FFFF = 0) :
    (hi.setWidth 20 <<< 8 ||| lo.setWidth 20) &&& m = 0 := by
  rw [← and_lanes_eq_self (digits_toNat_lt lo hi), BitVec.and_assoc, BitVec.and_comm 0x0FFFF, hm]
  exact BitVec.and_zero

section Gates
variable {c : Config}

/-- R8 item 3, by gate: one bit each, outside the digits' lanes. -/
theorem gateSel_of_gatesOk (hc : c.gatesOk = true) (g : Fin 3) :
    oneHot c.gateSel[g] = true ∧ c.gateSel[g] &&& 0x0FFFF = 0 := by
  simp only [Config.gatesOk, Bool.and_eq_true, beq_iff_eq] at hc
  match g with
  | 0 | 1 | 2 => simp_all

theorem gateSel_and_gateSel (hc : c.gatesOk = true) {g h : Fin 3} (hne : g ≠ h) : c.gateSel[g] &&& c.gateSel[h] = 0 := by
  refine oneHot_and_eq_zero (gateSel_of_gatesOk hc g).1 (gateSel_of_gatesOk hc h).1 ?_
  simp only [Config.gatesOk, Bool.and_eq_true, bne_iff_ne] at hc
  obtain ⟨⟨⟨-, h01⟩, h02⟩, h12⟩ := hc
  match g, h with
  | 0, 0 | 1, 1 | 2, 2 => exact absurd rfl hne
  | 0, 1 => exact h01
  | 0, 2 => exact h02
  | 1, 2 => exact h12
  | 1, 0 => exact h01.symm
  | 2, 0 => exact h02.symm
  | 2, 1 => exact h12.symm

theorem decos_and_gateSel (hg : c.gatesOk = true) (hd : c.decosOk = true) (g : Fin 3) :
    c.decoG1 &&& c.gateSel[g] = 0 ∧ c.decoG2 &&& c.gateSel[g] = 0 := by
  obtain ⟨hsel, -⟩ := gateSel_of_gatesOk hg g
  simp only [Config.decosOk, Bool.and_eq_true, bne_iff_ne] at hd
  obtain ⟨⟨⟨⟨⟨⟨⟨h1, h2⟩, h10⟩, h11⟩, h12⟩, h20⟩, h21⟩, h22⟩ := hd
  match g with
  | 0 => exact ⟨oneHot_and_eq_zero h1 hsel h10, oneHot_and_eq_zero h2 hsel h20⟩
  | 1 => exact ⟨oneHot_and_eq_zero h1 hsel h11, oneHot_and_eq_zero h2 hsel h21⟩
  | 2 => exact ⟨oneHot_and_eq_zero h1 hsel h12, oneHot_and_eq_zero h2 hsel h22⟩

/-- The word of an advance has no gate-select bit but that of the old GATE. -/
theorem advanceWord_and_gateSel {s : State} (hc : s.cfg.Ok) {g : Fin 3} (hne : s.gate ≠ g) :
    advanceWord s &&& s.cfg.gateSel[g] = 0 := by
  obtain ⟨-, hg, hd, -⟩ := hc
  obtain ⟨hd1, hd2⟩ := decos_and_gateSel hg hd g
  obtain ⟨-, hlane⟩ := gateSel_of_gatesOk hg g
  have hsel := gateSel_and_gateSel hg hne
  have hlanes := digits_and_eq_zero (segTable s.cfg s.lowerCode) (segTable s.cfg s.upperCode) hlane
  unfold advanceWord decorate compose
  split
  · rw [BitVec.and_or_distrib_right, BitVec.and_or_distrib_right, BitVec.and_or_distrib_right, hlanes, hsel, hd1, hd2]; rfl
  · rw [BitVec.and_or_distrib_right, hlanes, hsel]; rfl

end Gates

theorem gatesIn_zero (c : Config) : gatesIn c 0 = 0 := by
  simp [gatesIn]

/-- A word with no gate-select bit but that of one gate selects at most one gate. -/
theorem gatesIn_le_one {c : Config} {w : ShiftWord} (g : Fin 3) (hw : ∀ h : Fin 3, g ≠ h → w &&& c.gateSel[h] = 0) :
    gatesIn c w ≤ 1 := by
  have h0 : g ≠ 0 → w &&& c.gateSel[0] = 0 := hw 0
  have h1 : g ≠ 1 → w &&& c.gateSel[1] = 0 := hw 1
  have h2 : g ≠ 2 → w &&& c.gateSel[2] = 0 := hw 2
  obtain rfl | rfl | rfl : g = 0 ∨ g = 1 ∨ g = 2 := by omega
  · simp only [gatesIn, h1 (by decide), h2 (by decide), if_true]; split <;> omega
  · simp only [gatesIn, h0 (by decide), h2 (by decide), if_true]; split <;> omega
  · simp only [gatesIn, h0 (by decide), h1 (by decide), if_true]; split <;> omega

theorem gatesIn_advanceWord {s : State} (hc : s.cfg.Ok) : gatesIn s.cfg (advanceWord s) ≤ 1 :=
  gatesIn_le_one s.gate fun _ hne => advanceWord_and_gateSel hc hne

/-- In LTLO XSR is the whole word. -/
theorem ChipHasSentBits.xsr_eq_shw {s : State} (hs : ChipHasSentBits s) (hp : s.ph = .ltlo) : s.xsr = s.shw := by
  have hbits : bitsSent s = 20 := by simp [bitsSent, hp]
  apply BitVec.eq_of_getLsbD_eq
  intro k hk
  simpa [hbits] using hs.xsr k (hbits ▸ hk)

/-- RESET and an advance load a word of at most one gate, and what an operation commits is the whole word of SHW. -/
theorem Effect.keeps_oneGate {i : Instr} {s t : State} (h : Effect i s t) (hi : ∀ w, i ≠ .transmit w) (hc : s.cfg.Ok)
    (hlines : LinesByPhase s) (hchip : ChipHasSentBits s) (hs : OneGateAtATime s) : OneGateAtATime t := by
  obtain ⟨hcfg, -⟩ := h.frame
  obtain ⟨hloaded, hcommitted⟩ := hs
  constructor <;> rw [hcfg]
  · rcases h.shw_cases hi with hw | hw | hw <;> rw [hw]
    · exact hloaded
    · rw [gatesIn_zero]; exact Nat.zero_le 1
    · exact gatesIn_advanceWord hc
  · rcases h.commits_cases hi with hw | ⟨hl, hw⟩ <;> rw [hw]
    · exact hcommitted
    · rw [hchip.xsr_eq_shw (hlines.ph_of_latch_low hl)]
      exact List.forall_mem_append.mpr ⟨hcommitted, by simpa using hloaded⟩

/-- Settles O49: no operation but a TRANSMIT on its own loads a word of two gates, and the chip commits whole words only. -/
theorem stepKeepsOneGateAtATime : Obligations.StepKeepsOneGateAtATime := by
  unfold Obligations.StepKeepsOneGateAtATime
  intro s t hc hb hlines hchip hs h
  have hbench : benchAfter s = none := by simp [benchAfter, hb]
  rcases step_effect h with ⟨i, he, -, htransmit⟩ | ⟨-, -, rfl⟩
  · have hi : ∀ w, i ≠ .transmit w := fun w hw => by simp [htransmit w hw] at hb
    obtain ⟨-, -, hframe⟩ := he.frame
    exact ⟨he.keeps_oneGate hi hc ⟨hlines.data, hlines.sclk, hlines.latch, hlines.rest⟩ ⟨hchip.xsr, hchip.xout⟩
      ⟨hs.loaded, hs.committed⟩, hframe.trans hbench⟩
  · exact ⟨⟨hs.loaded, hs.committed⟩, hbench⟩

/-! ## The state after RESET (R39) -/

/-- Settles O52: every value is in the definition, and nothing has been sent or committed yet. -/
theorem resetStateMeetsTheInvariants : Obligations.ResetStateMeetsTheInvariants := by
  unfold Obligations.ResetStateMeetsTheInvariants
  have hok : State.reset.cfg.Ok := by decide
  have hlines : LinesByPhase State.reset := ⟨by decide, rfl, rfl, fun _ => rfl⟩
  have hchip : ChipHasSentBits State.reset := ⟨nofun, nofun⟩
  have hgate : OneGateAtATime State.reset := ⟨by simp [State.reset, gatesIn], by simp [State.reset, commits, Event.committed]⟩
  have hhold : HoldCounted State.reset := ⟨Nat.zero_lt_one, fun _ => rfl⟩
  exact ⟨rfl, rfl, rfl, rfl, rfl, rfl, rfl, rfl, rfl, rfl, rfl, hok, ⟨.nil, nofun⟩, hlines, hchip, hgate, hhold, rfl⟩

end Sys2Proof.Machine

/-! O36, O39, O42, O43: the chip on the three lines (R35, R36, R62 to R64). It shifts on a rising edge of SCLK only and commits on a
rising edge of LATCH only, DATA does not move around a clock pulse, and twenty bit cells therefore leave the whole word in it. -/

namespace Sys2Proof.Machine

/-! ## Edges of SCLK and LATCH -/

section Edges
variable {i : Instr} {s t : State}

/-- R62: TRANSMIT apart, XSR changes only where SCLK rises, and takes DATA at its low end. -/
theorem Effect.xsr_cases (h : Effect i s t) (hi : ∀ w, i ≠ .transmit w) :
    t.xsr = s.xsr ∨ (s.sclk = false ∧ t.sclk = true ∧ t.data = s.data ∧ t.xsr = BitVec.concat (s.xsr.setWidth 19) s.data) := by
  cases h with
  | transmit => exact absurd rfl (hi _)
  | dset => cases hc : s.sclk <;> simp [lineWrite_sclk_high_eq, hc]
  | _ => simp [resetBlock_eq, startTransmission_eq, lineWrite_latch_high_eq]

/-- R63: TRANSMIT apart, XOUT and the committed words change only where LATCH rises, and take all of XSR: `commits_cases`
with the line and the register it goes with. -/
theorem Effect.xout_cases (h : Effect i s t) (hi : ∀ w, i ≠ .transmit w) :
    (t.xout = s.xout ∧ commits t.history = commits s.history) ∨
      (s.latch = false ∧ t.latch = true ∧ t.xout = s.xsr ∧ commits t.history = commits s.history ++ [s.xsr]) := by
  cases h with
  | transmit => exact absurd rfl (hi _)
  | reset | ltlo =>
    cases hl : s.latch <;>
      simp [resetBlock_eq, lineWrite_latch_high_eq, hl, commits, List.filterMap_cons, Event.committed]
  | dset => cases hc : s.sclk <;> simp [lineWrite_sclk_high_eq, hc, commits, Event.committed]
  | _ => simp [startTransmission_eq, commits, Event.committed]

end Edges

/-- Settles O42: a step is an operation's effect, TRANSMIT excluded without a request, or a counted cycle of a hold. -/
theorem chipShiftsOnlyOnRisingClock : Obligations.ChipShiftsOnlyOnRisingClock := by
  unfold Obligations.ChipShiftsOnlyOnRisingClock
  intro s t hb h
  rcases step_effect h with ⟨i, he, -, htransmit⟩ | ⟨-, -, rfl⟩
  · rw [← concat_setWidth_eq_shift]
    exact he.xsr_cases (fun w hw => by simp [htransmit w hw] at hb)
  · exact .inl rfl

/-- Settles O43, as O42: by the effect of the step's operation on LATCH. -/
theorem displayChangesOnlyOnRisingLatch : Obligations.DisplayChangesOnlyOnRisingLatch := by
  unfold Obligations.DisplayChangesOnlyOnRisingLatch
  intro s t hb h
  rcases step_effect h with ⟨i, he, -, htransmit⟩ | ⟨-, -, rfl⟩
  · exact he.xout_cases (fun w hw => by simp [htransmit w hw] at hb)
  · exact .inl ⟨rfl, rfl⟩

/-! ## DATA around the clock pulse -/

/-- The exits of DSET and CKHI write SCLK only (R123, R124). -/
theorem Effect.data_of_clock_exit {i : Instr} {s t : State} (h : Effect i s t) (hi : i = .phDset ∨ i = .phCkhi) :
    t.data = s.data := by
  rcases hi with rfl | rfl
  · cases h with
    | none => rfl
    | dset => simp [lineWrite_sclk_high_eq]
  · cases h with
    | none | ckhi => rfl

/-- Settles O36: a counted cycle writes no line, and the exits of DSET and CKHI write SCLK only. -/
theorem dataIsStableAroundTheClockPulse : Obligations.DataIsStableAroundTheClockPulse := by
  unfold Obligations.DataIsStableAroundTheClockPulse
  intro s t hr h hp
  have hb : busy s = true := by rcases hp with hp | hp | ⟨hp, -⟩ <;> simp [busy, hp]
  cases hd : holdDone s with
  | false =>
    rw [step_counts_hold hb hr hd] at h
    cases h
    rfl
  | true =>
    rcases hp with hp | hp | ⟨-, hrunning⟩
    · rw [step_exits_phase hb hr hd (by rw [hp]; exact decode_phaseCode .dset)] at h
      exact (effect_of_exec h).data_of_clock_exit (.inl rfl)
    · rw [step_exits_phase hb hr hd (by rw [hp]; exact decode_phaseCode .ckhi)] at h
      exact (effect_of_exec h).data_of_clock_exit (.inr rfl)
    · simp [hd] at hrunning

/-! ## The word in the chip after a transmission -/

@[simp] theorem commits_append (h l : List Event) : commits (h ++ l) = commits h ++ commits l := List.filterMap_append

/-- No bit cell commits. -/
theorem commits_bitCells (w : ShiftWord) (n : Nat) (s : State) :
    commits (bitCells w n s).history = commits s.history := by
  induction n generalizing s with
  | zero => rfl
  | succ n ih =>
    rw [bitCells, ih, bitCell_eq]
    cases s.sclk <;> simp [commits, Event.committed]

/-- From SCLK = 0, the bit cells `n - 1` down to `0` put the low `n` bits of the word below what XSR held, moved up by `n`. -/
theorem bitCells_xsr_getLsbD (w : ShiftWord) (n : Nat) (s : State) (hc : s.sclk = false) (j : Nat) (hj : j < 20) :
    (bitCells w n s).xsr.getLsbD j = if j < n then w.getLsbD j else s.xsr.getLsbD (j - n) := by
  induction n generalizing s with
  | zero => rfl
  | succ n ih =>
    have hcell : (bitCell w n s).xsr = BitVec.concat (s.xsr.setWidth 19) (serialBit w n) := by simp [bitCell_eq, hc]
    rw [bitCells, ih _ (by rw [bitCell_eq]), hcell]
    rcases Nat.lt_trichotomy j n with hlt | rfl | hgt
    · rw [if_pos hlt, if_pos (by omega)]
    · rw [if_neg (by omega), if_pos (by omega), Nat.sub_self, getLsbD_shift_zero, serialBit]
    · rw [if_neg (by omega), if_neg (by omega), show j - n = j - (n + 1) + 1 by omega, getLsbD_shift_succ _ _ _ (by omega)]

/-- Twenty bit cells replace all of XSR by the word (R64). -/
theorem bitCells_twenty_xsr (w : ShiftWord) (s : State) (hc : s.sclk = false) : (bitCells w 20 s).xsr = w := by
  apply BitVec.eq_of_getLsbD_eq
  intro j hj
  rw [bitCells_xsr_getLsbD w 20 s hc j hj, if_pos hj]

/-- Settles O39: the twenty cells fill XSR, and the latch cell commits it. -/
theorem transmissionLeavesTheWordInTheChip : Obligations.TransmissionLeavesTheWordInTheChip := by
  unfold Obligations.TransmissionLeavesTheWordInTheChip
  intro s w hp hc
  have hxsr : (bitCells w 20 { s with shw := w }).xsr = w := bitCells_twenty_xsr w _ hc
  have hcommits := commits_bitCells w 20 { s with shw := w }
  refine ⟨transmitWord w s, if_neg (by simp [busy, hp]), ?_⟩
  rw [transmitWord, latchCell_eq]
  refine ⟨hxsr, hxsr, ?_⟩
  simp only [commits_append, hcommits, hxsr]
  rfl

end Sys2Proof.Machine

/-! O1, O2, O3, O4, O56: encodings (R83 to R92). A command word is its two fields, so decoder, encoder and canonical form are compared
field by field; the other formats are compared code by code. -/

namespace Sys2Proof

/-! ## Decoder and encoder -/

/-- R85: the fields of BUFWR, put back together, are the argument with `arg[31:11]` cleared. -/
theorem bufwrArg_fields (w : CmdWord) : bufwrArg (cmdIdx w) (cmdCode w) = cmdNow w &&& 0x7FF#32 := by
  apply BitVec.eq_of_toNat_eq
  have hmask : (0x7FF#32).toNat = 2 ^ 11 - 1 := rfl
  simp only [bufwrArg_toNat, cmdIdx, cmdCode, cmdNow, BitVec.toNat_and, hmask, Nat.and_two_pow_sub_one_eq_mod,
    BitVec.extractLsb'_toNat, Nat.shiftRight_eq_div_pow]
  omega

/-- A mask that keeps the op field masks the argument only. -/
theorem mkCmd_and_mkCmd (op : BitVec 2) (arg mask : BitVec 32) :
    mkCmd op arg &&& mkCmd 3#2 mask = mkCmd op (arg &&& mask) := by
  rw [mkCmd, mkCmd, BitVec.and_append, mkCmd]
  congr 1
  exact BitVec.and_allOnes

/-- R85 on the fields: TICK keeps its argument, BUFWR the low 11 bits of it, NOP and RSVD3 nothing. -/
theorem canonicalCmd_mkCmd (op : BitVec 2) (arg : BitVec 32) :
    canonicalCmd (mkCmd op arg) =
      mkCmd op (if op = 1#2 then arg else if op = 2#2 then arg &&& 0x7FF#32 else 0#32) := by
  have hbufwr : 0x3000007FF#34 = mkCmd 3#2 0x7FF#32 := by decide
  have hother : 0x300000000#34 = mkCmd 3#2 0#32 := by decide
  rw [canonicalCmd, cmdOp_mkCmd, hbufwr, hother, mkCmd_and_mkCmd, mkCmd_and_mkCmd, BitVec.and_zero]
  split_ifs <;> rfl

/-- R85, R89: every command word decodes, to an instruction whose encoding is the word without its ignored bits. -/
theorem encode_decodeCmd (w : CmdWord) : encode (decodeCmd w) = .cmd (canonicalCmd w) := by
  have hop : ∀ op : BitVec 2, op = 0#2 ∨ op = 1#2 ∨ op = 2#2 ∨ op = 3#2 := by decide
  rw [← congrArg canonicalCmd (mkCmd_fields w), canonicalCmd_mkCmd]
  obtain h | h | h | h := hop (cmdOp w)
  · simp [decodeCmd, encode, h]
  · simp [decodeCmd, encode, h]
  · simp [decodeCmd, encode, h, bufwrArg_fields]
  · simp [decodeCmd, encode, h]

/-- R86: a phase code that decodes is the code of the operation it decodes to. -/
theorem encode_of_decodeSeq_eq_ok {p : BitVec 3} {i : Instr} (h : decodeSeq p = .ok i) : encode i = .seq p := by
  unfold decodeSeq at h
  split_ifs at h <;> cases h <;> subst p <;> rfl

/-- R86: the unused phase codes are 6 and 7. -/
theorem decodeSeq_eq_error_iff (p : BitVec 3) (r : DecodeError) :
    decodeSeq p = .error r ↔ r = .unusedPhase p ∧ (p = 6#3 ∨ p = 7#3) := by
  have hcodes : p = 0#3 ∨ p = 1#3 ∨ p = 2#3 ∨ p = 3#3 ∨ p = 4#3 ∨ p = 5#3 ∨ p = 6#3 ∨ p = 7#3 := by
    revert p
    decide
  obtain rfl | rfl | rfl | rfl | rfl | rfl | rfl | rfl := hcodes <;> simp [decodeSeq, eq_comm]

/-- R87: the pin decodes at 1 only. -/
theorem decode_pin_eq_error_iff (b : BitVec 1) (r : DecodeError) :
    decode (.pin b) = .error r ↔ r = .resetLow ∧ b = 0#1 := by
  obtain rfl | rfl := BitVec.eq_zero_or_eq_one b <;> simp [decode, eq_comm]

/-- The decoder reads back the fields of a command word; no other format has fields. -/
theorem decode_encode (i : Instr) : decode (encode i) = .ok i := by
  cases i with
  | tick | bufwr | nop | rsvd3 => simp [encode, decode, decodeCmd]
  | _ => rfl

/-- R85: only command words have bits that the decoder ignores. -/
theorem encode_of_decode_eq_ok {e : EncWord} {i : Instr} (h : decode e = .ok i) : encode i = e.canonical := by
  cases e with
  | pin b =>
    simp only [decode] at h
    split_ifs at h with hb
    cases h
    rw [hb]
    rfl
  | cmd w =>
    cases h
    exact encode_decodeCmd w
  | romaddr c | shiftword w =>
    cases h
    rfl
  | seq p => exact encode_of_decodeSeq_eq_ok h

/-- Settles O1, instruction by instruction one way and format by format the other. -/
theorem decodeInvertsEncode : Obligations.DecodeInvertsEncode := by
  unfold Obligations.DecodeInvertsEncode
  exact ⟨decode_encode, fun _ _ => encode_of_decode_eq_ok⟩

/-- Settles O2: only formats PIN and SEQ have words that do not decode. -/
theorem onlyThreeWordsAreNoOperation : Obligations.OnlyThreeWordsAreNoOperation := by
  unfold Obligations.OnlyThreeWordsAreNoOperation
  intro e
  cases e with
  | pin b => simp [decode_pin_eq_error_iff]
  | seq p => simp [decode, decodeSeq_eq_error_iff]
  | cmd | romaddr | shiftword => simp [decode]

/-- Settles O3, by running the decoder on the fourteen words. -/
theorem wordsOfTheSpecDecode : Obligations.WordsOfTheSpecDecode := by
  unfold Obligations.WordsOfTheSpecDecode
  decide

end Sys2Proof

namespace Sys2Proof.Machine

/-! ## The lines of the assembler (R91) -/

/-- The word of `TICK n`, the sample modulo 2^32. -/
theorem asmCmd_tick (n : Nat) :
    asmCmd (.tick (BitVec.ofNat 32 n)) = HostCycle.present (BitVec.ofNat 34 (0x100000000 + n % 2 ^ 32)) := by
  have hword : mkCmd 1#2 (BitVec.ofNat 32 n) = BitVec.ofNat 34 (0x100000000 + n % 2 ^ 32) := by
    apply BitVec.eq_of_toNat_eq
    simp only [mkCmd_toNat, BitVec.toNat_ofNat]
    omega
  rw [← hword]
  rfl

/-- The word of `BUFWR i, c`. -/
theorem asmBufwr_eq {i c : Nat} (hi : i < 8) (hc : c < 256) :
    asmBufwr i c = HostCycle.present (BitVec.ofNat 34 (0x200000000 + i * 0x100 + c)) := by
  have hword : mkCmd 2#2 (bufwrArg (BitVec.ofNat 3 i) (BitVec.ofNat 8 c)) =
      BitVec.ofNat 34 (0x200000000 + i * 0x100 + c) := by
    apply BitVec.eq_of_toNat_eq
    simp only [mkCmd_toNat, bufwrArg_toNat, BitVec.toNat_ofNat]
    omega
  rw [← hword]
  rfl

/-- TICKS as a list: the `k`-th sample is `k` steps after the first. -/
theorem asmTicks_eq_map (a d n : Nat) :
    asmTicks a d n =
      (List.range n).map fun k => HostCycle.present (BitVec.ofNat 34 (0x100000000 + (a + k * d) % 2 ^ 32)) := by
  induction n generalizing a with
  | zero => rfl
  | succ n ih =>
    have hshift : ∀ k, a + d + k * d = a + (k + 1) * d := fun k => by ring
    simp only [asmTicks, asmCmd_tick, ih, hshift, List.range_succ_eq_map, List.map_cons, List.map_map, Nat.zero_mul,
      Nat.add_zero]
    rfl

/-- Settles O4, line by line; LOADBUF, RESET and the raw word are their definitions. -/
theorem assemblerWritesTheStatedWords : Obligations.AssemblerWritesTheStatedWords := by
  unfold Obligations.AssemblerWritesTheStatedWords
  refine ⟨rfl, fun n hn => ?_, fun i c hi hc => ?_, rfl, rfl, fun _ _ => rfl, fun _ _ _ _ _ _ => rfl, asmTicks_eq_map⟩
  · rw [AsmLine.cycles, asmCmd_tick, Nat.mod_eq_of_lt hn]
  · rw [AsmLine.cycles, asmBufwr_eq hi hc]

/-! ## Glyph classes (R83) -/

/-- R8 items 1 and 2: the blank code is a glyph behind the digits. -/
theorem blankCode_bounds {c : Config} (h : c.Ok) : 16 ≤ c.blankCode.toNat ∧ c.blankCode.toNat < c.nGlyph := by
  obtain ⟨hblank, -, -, -⟩ := h
  simp only [Config.blankOk, Bool.and_eq_true, decide_eq_true_eq] at hblank
  obtain ⟨⟨⟨-, hlow⟩, hhigh⟩, -⟩ := hblank
  exact ⟨hlow, hhigh⟩

theorem glyphOf_digit {c : Config} {code : Byte} (hn : code.toNat < c.nGlyph) (h : code.toNat ≤ 9) :
    glyphOf c code = .digit code.toNat := by
  rw [glyphOf, if_neg (by omega), if_pos (by omega)]

theorem glyphOf_hexDigit {c : Config} {code : Byte} (hn : code.toNat < c.nGlyph) (hlow : 10 ≤ code.toNat)
    (hhigh : code.toNat ≤ 15) : glyphOf c code = .hexDigit code.toNat := by
  rw [glyphOf, if_neg (by omega), if_neg (by omega), if_pos (by omega)]

theorem glyphOf_above_digits {c : Config} {code : Byte} (hn : code.toNat < c.nGlyph) (hlow : 16 ≤ code.toNat) :
    glyphOf c code = if code = c.blankCode then .blank else .status := by
  rw [glyphOf, if_neg (by omega), if_neg (by omega), if_neg (by omega)]

theorem glyphOf_padding {c : Config} {code : Byte} (hn : c.nGlyph ≤ code.toNat) : glyphOf c code = .padding :=
  if_pos hn

/-- Settles O56: the digits end below the blank code, and that is below N_GLYPH. -/
theorem glyphClassesPartitionTheCodes : Obligations.GlyphClassesPartitionTheCodes := by
  unfold Obligations.GlyphClassesPartitionTheCodes
  intro c hc
  obtain ⟨hlow, hhigh⟩ := blankCode_bounds hc
  refine ⟨⟨hlow, hhigh, ?_⟩, fun code h => ?_, fun code h h' => ?_, fun code h hn hne => ?_, fun code hn => ?_⟩
  · rw [glyphOf_above_digits hhigh hlow, if_pos rfl]
  · exact glyphOf_digit (by omega) h
  · exact glyphOf_hexDigit (by omega) h h'
  · rw [glyphOf_above_digits hn h, if_neg hne]
  · exact glyphOf_padding hn

end Sys2Proof.Machine

/-! O20, O21: the segment encoder (R110 to R113). SEG_TABLE is said once for each side of N_GLYPH; below it the lookup goes to the table
that the variant builds. -/

namespace Sys2Proof.Machine

/-- R110: the lookup is noted among the reads, and that is all ENC does. -/
theorem exec_enc (c : Byte) (s : State) : exec (.enc c) s = .next (s.noteReads [.rom c (segTable s.cfg c)]) :=
  rfl

theorem segTable_padding {c : Config} {code : Byte} (hn : c.nGlyph ≤ code.toNat) : segTable c code = 0x00#8 :=
  if_neg (Nat.not_lt_of_le hn)

theorem segTable_glyph {c : Config} {code : Byte} (hn : code.toNat < c.nGlyph) :
    segTable c code = ((builtTable c)[code.toNat]?).getD 0x00#8 := by
  rw [segTable, if_pos hn, List.getD_eq_getElem?_getD]
  rfl

theorem builtTable_a {c : Config} (h : c.variant = .a) : builtTable c = c.tableA := by
  rw [builtTable, h]

theorem builtTable_b {c : Config} (h : c.variant = .b) : builtTable c = c.tableB := by
  rw [builtTable, h]

/-- R8 item 2: the blank code is dark. -/
theorem segTable_blankCode {c : Config} (h : c.Ok) : segTable c c.blankCode = 0x00#8 := by
  obtain ⟨hblank, -, -, -⟩ := h
  rw [Config.blankOk, Bool.and_eq_true] at hblank
  obtain ⟨-, hdark⟩ := hblank
  exact eq_of_beq hdark

/-- Settles O20: the step of ENC, with the note of the read written out as a record update. -/
theorem encReturnsTheTablePattern : Obligations.EncReturnsTheTablePattern := by
  unfold Obligations.EncReturnsTheTablePattern
  intro s c
  rw [exec_enc, State.noteReads]

/-- Settles O21: what SEG_TABLE reads on each side of N_GLYPH, and the table that each variant builds. -/
theorem paddingAndBlankAreDark : Obligations.PaddingAndBlankAreDark := by
  unfold Obligations.PaddingAndBlankAreDark
  refine ⟨fun c code hn => ?_, fun c hc => ⟨?_, ?_⟩, fun c code hn hv => ?_, fun c code hn hv => ?_⟩
  · exact segTable_padding hn
  · exact segTable_blankCode hc
  · exact (blankCode_bounds hc).2
  · rw [segTable_glyph hn, builtTable_a hv]
  · rw [segTable_glyph hn, builtTable_b hv]

end Sys2Proof.Machine

/-! O29 to O34, O37, O38, O40, O41, O45, O48: the serial transport (R120 to R138). The exits of the phases are written out once; the
events of a transmission are written out once, the chip's own among them, and every count and order of R131 and R138 is read from
them; the cycles left of a transmission go down by one in each cycle; and every operation keeps the bits sent in the chip. -/

namespace Sys2Proof.Machine

/-! ## IDLE -/

/-- R181: with no command presented, the cycle is all that leaves the host's script. -/
theorem hostAfter_of_no_command {s : State} (h : s.pins.cmd = none) : hostAfter s = s.host.tail := by
  cases hh : s.host with
  | nil => simp [hostAfter, hh]
  | cons c rest =>
    have hc : c.cmd = none := by simpa [State.pins, hh] using h
    simp [hostAfter, hh, hc]

theorem exec_phIdle (s : State) : exec .phIdle s = .next s := rfl

/-- Settles O30: without reset, request and command the cycle selects PH.IDLE. -/
theorem idleStaysIdle : Obligations.IdleStaysIdle := by
  unfold Obligations.IdleStaysIdle
  refine ⟨exec_phIdle, fun s hp hr hc hb => ?_⟩
  have hfetch : fetch s = some (.seq (phaseCode .idle)) := by simp [fetch, busy, hp, hr, hc, hb]
  have hafter : afterFetch s = { s with host := s.host.tail } := by
    simp [afterFetch_eq, hostAfter_of_no_command hc, benchAfter, hb]
  simp only [step, hfetch, decode_phaseCode, exec_phIdle, hafter]

/-- R122: the only operation that takes the block out of IDLE is TICK, and it enters DSET. -/
theorem Effect.tick_of_leaves_idle {i : Instr} {s t : State} (h : Effect i s t) (hs : s.ph = .idle) (ht : t.ph ≠ .idle) :
    (∃ now, i = .tick now) ∧ t.ph = .dset := by
  cases h with
  | tick => exact ⟨⟨_, rfl⟩, rfl⟩
  | none | bufwr | enc => exact absurd hs ht
  | reset => rw [resetBlock_eq] at ht; exact absurd rfl ht
  | transmit w => obtain ⟨x, l, hw⟩ := transmitWord_eq w s; rw [hw] at ht; exact absurd hs ht
  | lthi => exact absurd rfl ht
  | dset hp | ckhi hp | ckloNextBit hp | ckloLastBit hp | ltlo hp => simp [hs] at hp

/-- R152: a tick that is not due does nothing. -/
theorem exec_tick_of_not_due {s : State} {now : Millis} (hd : due now s = false) : exec (.tick now) s = .next s := by
  simp [exec, execTick, hd]

theorem cmdOp_of_decodeCmd_tick {w : CmdWord} {now : Millis} (h : decodeCmd w = .tick now) :
    cmdOp w = 1#2 ∧ cmdNow w = now := by
  unfold decodeCmd at h
  split_ifs at h with h₀ h₁
  · exact ⟨h₁, by simpa using h⟩

/-- Settles O29: of all that a cycle in IDLE can carry out, only a TICK leaves IDLE, and only a due one. -/
theorem onlyADueTickLeavesIdle : Obligations.OnlyADueTickLeavesIdle := by
  unfold Obligations.OnlyADueTickLeavesIdle
  intro s t hp h ht
  have hp' : (afterFetch s).ph = .idle := hp
  rcases step_cases h with ⟨-, rfl⟩ | ⟨-, hbusy, -⟩ | ⟨-, -, hx⟩ | ⟨hr, -, hx⟩
  · rw [resetBlock_eq] at ht
    exact absurd rfl ht
  · exact absurd hp hbusy
  · simp [hp] at hx
  · rcases hx with ⟨c, -, hx⟩ | ⟨w, -, hx⟩ | ⟨w, -, hc, hx⟩ | ⟨-, -, rfl⟩
    · obtain ⟨⟨now, hi⟩, -⟩ := (effect_of_exec (i := .enc c) hx).tick_of_leaves_idle hp' ht
      cases hi
    · obtain ⟨⟨now, hi⟩, -⟩ := (effect_of_exec (i := .transmit w) hx).tick_of_leaves_idle hp' ht
      cases hi
    · obtain ⟨⟨now, hi⟩, hph⟩ := (effect_of_exec hx).tick_of_leaves_idle hp' ht
      obtain ⟨hop, rfl⟩ := cmdOp_of_decodeCmd_tick hi
      refine ⟨w, hc, hr, hop, ?_, hph⟩
      by_contra hd
      rw [hi, exec_tick_of_not_due (s := afterFetch s) (eq_false_of_ne_true hd)] at hx
      obtain rfl := Host.Outcome.next.inj hx
      exact ht hp'
    · exact absurd hp' ht

/-! ## The exits of the phases, each in its own phase -/

section Exits
variable {s : State}

theorem exec_phDset (hp : s.ph = .dset) : exec .phDset s = .next (enterPhase .ckhi (lineWrite .sclk true (hold s))) :=
  if_pos hp

theorem exec_phCkhi (hp : s.ph = .ckhi) : exec .phCkhi s = .next (enterPhase .cklo (lineWrite .sclk false (hold s))) :=
  if_pos hp

theorem exec_phCklo_next_bit (hp : s.ph = .cklo) {b : Fin 20} (hb : s.biti.val = b.val + 1) :
    exec .phCklo s = .next (enterPhase .dset (lineWrite .data (serialBit s.shw b.val) { hold s with biti := b })) := by
  have hprev : prevBit s.biti = b := Fin.ext (by simp [prevBit, hb])
  simp [exec, execPhCklo, hp, hb, hprev]

theorem exec_phCklo_last_bit (hp : s.ph = .cklo) (hb : s.biti.val = 0) :
    exec .phCklo s = .next (enterPhase .ltlo (lineWrite .latch false (hold s))) :=
  (if_pos hp).trans (if_neg (by omega))

theorem exec_phLtlo (hp : s.ph = .ltlo) : exec .phLtlo s = .next (enterPhase .lthi (lineWrite .latch true (hold s))) :=
  if_pos hp

theorem exec_phLthi (hp : s.ph = .lthi) : exec .phLthi s = .next (enterPhase .idle (completeAdvance s.tnow (hold s))) :=
  if_pos hp

end Exits

/-- Settles O31: the two writes of SCLK, the first with the chip's shift. -/
theorem clockHighAndLowPhases : Obligations.ClockHighAndLowPhases := by
  unfold Obligations.ClockHighAndLowPhases
  refine ⟨fun s hp => ?_, fun s hp => ?_⟩
  · rw [exec_phDset hp, lineWrite_sclk_high_eq, concat_setWidth_eq_shift]
    cases hc : s.sclk <;> simp [enterPhase, hold, State.log, hc]
  · rw [exec_phCkhi hp, lineWrite_sclk_low_eq]
    simp [enterPhase, hold, State.log]

/-- Settles O32: the write of DATA while bits remain, of LATCH after the last. -/
theorem clockLowPhaseSendsTheNextBitOrLatches : Obligations.ClockLowPhaseSendsTheNextBitOrLatches := by
  unfold Obligations.ClockLowPhaseSendsTheNextBitOrLatches
  refine ⟨fun s b hp hb => ?_, fun s hp hb => ?_⟩
  · rw [exec_phCklo_next_bit hp hb, lineWrite_data_eq]
    simp [enterPhase, hold, State.log, serialBit]
  · rw [exec_phCklo_last_bit hp hb, lineWrite_latch_low_eq]
    simp [enterPhase, hold, State.log]

/-- Settles O33: the write of LATCH with the chip's commit, then steps 6 and 7 of the advance. -/
theorem latchPhasesCommitAndCompleteTheAdvance : Obligations.LatchPhasesCommitAndCompleteTheAdvance := by
  unfold Obligations.LatchPhasesCommitAndCompleteTheAdvance
  refine ⟨fun s hp => ?_, fun s hp => ⟨nextGate s.gate, nextGate_val s.gate, exec_phLthi hp⟩⟩
  rw [exec_phLtlo hp, lineWrite_latch_high_eq]
  cases hc : s.latch <;> simp [enterPhase, hold, State.log, hc]

/-- Settles O34: a hold that is not done selects no operation. -/
theorem holdWritesNothingButItsCounter : Obligations.HoldWritesNothingButItsCounter := by
  unfold Obligations.HoldWritesNothingButItsCounter
  intro s hb hr hd
  exact step_counts_hold hb hr (by simpa [holdDone] using hd)

/-! ## The events of a transmission -/

/-- All events of a bit cell for the bit `b`, the chip's shift among them unless SCLK was 1 before (R62). -/
def cellHistory (sclk b : Level) : List Event :=
  [.write .data b, .hold, .write .sclk true] ++ (if sclk then [] else [.shift b]) ++ [.hold, .write .sclk false, .hold]

/-- All events of the bit cells `n - 1` down to `0`; from the second cell on, SCLK was 0 before. -/
def cellsHistory (sclk : Level) (w : ShiftWord) : Nat → List Event
  | 0 => []
  | n + 1 => cellHistory sclk (serialBit w n) ++ cellsHistory false w n

/-- All events of a transmission that commits `x`. -/
def transmissionHistory (sclk : Level) (w x : ShiftWord) : List Event :=
  cellsHistory sclk w 20 ++ [.write .latch false, .hold, .write .latch true, .commit x, .hold]

theorem bitCells_history (w : ShiftWord) (n : Nat) (s : State) :
    (bitCells w n s).history = s.history ++ cellsHistory s.sclk w n := by
  induction n generalizing s with
  | zero => simp [bitCells, cellsHistory]
  | succ n ih => rw [bitCells, ih, bitCell_eq]; simp [cellsHistory, cellHistory]

/-- R130: TRANSMIT from IDLE, its events written out. -/
theorem exec_transmit {s : State} (w : ShiftWord) (hp : s.ph = .idle) :
    ∃ x, exec (.transmit w) s = .next
      { s with
        shw := w, data := serialBit w 0, sclk := false, latch := true, biti := 0, dly := 0, xsr := x, xout := x
        history := s.history ++ transmissionHistory s.sclk w x } := by
  have hexec : exec (.transmit w) s = .next (transmitWord w s) := if_neg (by simp [busy, hp])
  obtain ⟨x, l, hcells⟩ := bitCells_succ_frame w 19 { s with shw := w }
  have hl : l = cellsHistory s.sclk w 20 :=
    List.append_cancel_left ((congrArg State.history hcells).symm.trans (bitCells_history w 20 { s with shw := w }))
  refine ⟨x, ?_⟩
  rw [hexec, transmitWord, hcells, latchCell_eq, hl]
  simp [transmissionHistory]

/-! ## SRTC's own events -/

@[simp] theorem cellHistory_bySrtc (sclk b : Level) : (cellHistory sclk b).filter Event.bySrtc = cellEvents b := by
  cases sclk <;> rfl

@[simp] theorem cellsHistory_bySrtc (sclk : Level) (w : ShiftWord) (n : Nat) :
    (cellsHistory sclk w n).filter Event.bySrtc = bitEvents w n := by
  induction n generalizing sclk with
  | zero => rfl
  | succ n ih => simp [cellsHistory, bitEvents, ih]

theorem transmissionHistory_bySrtc (sclk : Level) (w x : ShiftWord) :
    (transmissionHistory sclk w x).filter Event.bySrtc = frameEvents w := by
  rw [transmissionHistory, List.filter_append, cellsHistory_bySrtc]
  rfl

/-- Settles O37: the events of TRANSMIT without the chip's are the frame. -/
theorem transmitSendsTheStatedFrame : Obligations.TransmitSendsTheStatedFrame := by
  unfold Obligations.TransmitSendsTheStatedFrame
  intro s w hp
  obtain ⟨x, hx⟩ := exec_transmit w hp
  exact ⟨_, x, x, transmissionHistory_bySrtc s.sclk w x, hx⟩

/-! ## The counts of a transmission (R131) -/

/-- Twenty cells that each have `k` events of a kind, and the latch cell. -/
theorem countP_frameEvents {p : Event → Bool} {k : Nat} (w : ShiftWord) (hp : ∀ b, (cellEvents b).countP p = k) :
    (frameEvents w).countP p = 20 * k + latchEvents.countP p := by
  have hcells : ∀ n, (bitEvents w n).countP p = n * k := by
    intro n
    induction n with
    | zero => simp [bitEvents]
    | succ n ih => rw [bitEvents, List.countP_append, hp, ih, Nat.succ_mul, Nat.add_comm]
  rw [frameEvents, List.countP_append, hcells]

/-- Events of a kind that the chip never appends are counted on the frame. -/
theorem countP_transmissionHistory {p : Event → Bool} {k : Nat} (sclk : Level) (w x : ShiftWord)
    (hchip : ∀ e, p e = true → e.bySrtc = true) (hp : ∀ b, (cellEvents b).countP p = k) :
    (transmissionHistory sclk w x).countP p = 20 * k + latchEvents.countP p := by
  rw [← countP_frameEvents w hp, ← transmissionHistory_bySrtc sclk w x, List.countP_filter]
  exact List.countP_congr fun e _ => by simpa using hchip e

/-- A write is SRTC's own event, whatever it writes. -/
theorem bySrtc_of_write {l : Line} {e : Event} (h : (e == .write l true || e == .write l false) = true) :
    e.bySrtc = true := by
  rcases Bool.or_eq_true_iff.mp h with h | h <;> rw [eq_of_beq h] <;> rfl

theorem countP_data_transmissionHistory (sclk : Level) (w x : ShiftWord) :
    (transmissionHistory sclk w x).countP (fun e => e == .write .data true || e == .write .data false) = 20 :=
  countP_transmissionHistory (k := 1) sclk w x (fun _ => bySrtc_of_write) (by decide)

theorem countP_sclk_transmissionHistory (sclk : Level) (w x : ShiftWord) :
    (transmissionHistory sclk w x).countP (fun e => e == .write .sclk true || e == .write .sclk false) = 40 :=
  countP_transmissionHistory (k := 2) sclk w x (fun _ => bySrtc_of_write) (by decide)

theorem countP_hold_transmissionHistory (sclk : Level) (w x : ShiftWord) :
    (transmissionHistory sclk w x).countP (fun e => e == .hold) = 62 :=
  countP_transmissionHistory (k := 3) sclk w x (fun e he => by rw [eq_of_beq he]; rfl) (by decide)

/-- From SCLK = 0, the chip shifts once in each cell. -/
theorem countP_shift_cellsHistory (w : ShiftWord) (n : Nat) :
    (cellsHistory false w n).countP (fun e => e == .shift true || e == .shift false) = n := by
  induction n with
  | zero => rfl
  | succ n ih => cases hb : serialBit w n <;> simp [cellsHistory, cellHistory, ih, hb]

theorem commits_cellHistory (sclk b : Level) : commits (cellHistory sclk b) = [] := by
  cases sclk <;> rfl

theorem commits_cellsHistory (sclk : Level) (w : ShiftWord) (n : Nat) : commits (cellsHistory sclk w n) = [] := by
  induction n generalizing sclk with
  | zero => rfl
  | succ n ih => rw [cellsHistory, commits_append, commits_cellHistory, ih, List.append_nil]

theorem write_latch_not_mem_cellsHistory (sclk b : Level) (w : ShiftWord) (n : Nat) :
    Event.write .latch b ∉ cellsHistory sclk w n := by
  induction n generalizing sclk with
  | zero => simp [cellsHistory]
  | succ n ih => cases sclk <;> simp [cellsHistory, cellHistory, ih]

theorem filter_latch_transmissionHistory (sclk : Level) (w x : ShiftWord) :
    (transmissionHistory sclk w x).filter (fun e => e == .write .latch true || e == .write .latch false) =
      [.write .latch false, .write .latch true] := by
  have hcells : (cellsHistory sclk w 20).filter (fun e => e == .write .latch true || e == .write .latch false) = [] := by
    refine List.filter_eq_nil_iff.mpr fun e he h => ?_
    rcases Bool.or_eq_true_iff.mp h with h | h <;> rw [eq_of_beq h] at he <;>
      exact write_latch_not_mem_cellsHistory _ _ _ _ he
  rw [transmissionHistory, List.filter_append, hcells]
  rfl

/-- LATCH is written in the latch cell only, and SCLK in the bit cells only. -/
theorem sclk_before_latch {sclk bi bj : Level} {w x : ShiftWord} {i j : Nat}
    (hi : (transmissionHistory sclk w x)[i]? = some (.write .latch bi))
    (hj : (transmissionHistory sclk w x)[j]? = some (.write .sclk bj)) : j < i := by
  rw [transmissionHistory, List.getElem?_append] at hi hj
  have hlatch : (cellsHistory sclk w 20).length ≤ i := by
    by_contra hlt
    rw [if_pos (Nat.lt_of_not_le hlt)] at hi
    exact write_latch_not_mem_cellsHistory _ _ _ _ (List.mem_of_getElem? hi)
  have hclock : j < (cellsHistory sclk w 20).length := by
    by_contra hge
    rw [if_neg hge] at hj
    simpa using List.mem_of_getElem? hj
  exact Nat.lt_of_lt_of_le hclock hlatch

/-- Settles O38: each count and order is read from the events of TRANSMIT. -/
theorem transmissionCountsDoNotDependOnTheWord : Obligations.TransmissionCountsDoNotDependOnTheWord := by
  unfold Obligations.TransmissionCountsDoNotDependOnTheWord
  intro s w hp hc _
  obtain ⟨x, hx⟩ := exec_transmit w hp
  rw [hc] at hx
  have hshifts : (transmissionHistory false w x).countP (fun e => e == .shift true || e == .shift false) = 20 := by
    rw [transmissionHistory, List.countP_append, countP_shift_cellsHistory]
    rfl
  have hcommits : (commits (transmissionHistory false w x)).length = 1 := by
    rw [transmissionHistory, commits_append, commits_cellsHistory]
    rfl
  exact ⟨_, _, hx, rfl, transmissionHistory_bySrtc _ w x, countP_data_transmissionHistory _ w x,
    countP_sclk_transmissionHistory _ w x, filter_latch_transmissionHistory _ w x, countP_hold_transmissionHistory _ w x,
    hshifts, hcommits, fun _ _ _ _ => sclk_before_latch⟩

/-! ## The edges of DATA (R138) -/

/-- The chip's events are no edges of DATA. -/
theorem dataEdges_bySrtc (b : Level) (l : List Event) : dataEdges b (l.filter Event.bySrtc) = dataEdges b l := by
  induction l generalizing b with
  | nil => rfl
  | cons e l ih =>
    cases e with
    | write line c => cases line <;> simp [List.filter_cons, Event.bySrtc, dataEdges, ih]
    | hold | shift | commit => simp [List.filter_cons, Event.bySrtc, dataEdges, ih]

/-- Each bit cell writes DATA once, so the edges are where a bit differs from the level before it; the latch cell makes none. -/
theorem dataEdges_bitEvents (w : ShiftWord) (n : Nat) (b : Level) :
    dataEdges b (bitEvents w (n + 1) ++ latchEvents) =
      (if b = w.getLsbD n then 0 else 1) + ((List.range n).filter fun i => w.getLsbD i != w.getLsbD (i + 1)).length := by
  induction n generalizing b with
  | zero => rfl
  | succ n ih =>
    have hcell : dataEdges b (bitEvents w (n + 2) ++ latchEvents) =
        (if b = w.getLsbD (n + 1) then 0 else 1) + dataEdges (w.getLsbD (n + 1)) (bitEvents w (n + 1) ++ latchEvents) := rfl
    rw [hcell, ih, List.range_succ, List.filter_append, List.length_append]
    by_cases h : w.getLsbD (n + 1) = w.getLsbD n
    · simp [h]
    · simp [h, Ne.symm h, Nat.add_comm]

/-- Settles O41: the edges of DATA are counted on the frame. -/
theorem dataEdgesAreTheBitChanges : Obligations.DataEdgesAreTheBitChanges := by
  unfold Obligations.DataEdgesAreTheBitChanges
  intro s w hp
  obtain ⟨x, hx⟩ := exec_transmit w hp
  refine ⟨_, _, hx, rfl, ?_, countP_data_transmissionHistory _ w x⟩
  rw [← dataEdges_bySrtc, transmissionHistory_bySrtc, frameEvents, dataEdges_bitEvents]

/-! ## The chip during the bit cells (R133) -/

/-- From SCLK = 0, `k` bit cells put the top `k` bits of the word into the low `k` of XSR. -/
theorem sendCells_chip (w : ShiftWord) (s : State) (hc : s.sclk = false) (k : Nat) (hk : k ≤ 20) :
    (sendCells w k s).sclk = false ∧ (sendCells w k s).xout = s.xout ∧
      ∀ j, j < k → (sendCells w k s).xsr.getLsbD j = w.getLsbD (20 - k + j) := by
  induction k with
  | zero => exact ⟨hc, rfl, nofun⟩
  | succ k ih =>
    obtain ⟨hclk, hxout, hxsr⟩ := ih (by omega)
    rw [sendCells, bitCell_eq]
    refine ⟨rfl, hxout, fun j hj => ?_⟩
    simp only [hclk, Bool.false_eq_true, if_false]
    cases j with
    | zero => rw [getLsbD_shift_zero, serialBit, show 20 - (k + 1) + 0 = 19 - k by omega]
    | succ j =>
      rw [getLsbD_shift_succ _ _ _ (by omega), hxsr j (by omega), show 20 - (k + 1) + (j + 1) = 20 - k + j by omega]

/-- Settles O40, by induction on the cells; after twenty of them the latch cell commits the whole word. -/
theorem bitCellsFillTheChipFromTheTop : Obligations.BitCellsFillTheChipFromTheTop := by
  unfold Obligations.BitCellsFillTheChipFromTheTop
  intro s w k hc hk
  obtain ⟨-, hxout, hxsr⟩ := sendCells_chip w s hc k hk
  refine ⟨hxsr, hxout, ?_⟩
  rintro rfl
  have hword : (sendCells w 20 s).xsr = w := BitVec.eq_of_getLsbD_eq fun j hj => by simpa using hxsr j hj
  exact ⟨hword, by rw [latchCell_eq]; exact hword⟩

/-! ## The cycles left of a transmission (R134) -/

theorem holdsLeft_pos {s : State} (hp : s.ph ≠ .idle) : 0 < holdsLeft s := by
  cases hph : s.ph with
  | idle => exact absurd hph hp
  | _ => simp [holdsLeft, hph]

theorem cyclesLeft_of_idle {s : State} (hp : s.ph = .idle) : cyclesLeft s = 0 := by
  simp [cyclesLeft, holdsLeft, hp]

theorem HoldCounted.cyclesLeft_pos {s : State} (hs : HoldCounted s) (hp : s.ph ≠ .idle) : 0 < cyclesLeft s :=
  Nat.sub_pos_of_lt (Nat.lt_of_lt_of_le hs.below (Nat.le_mul_of_pos_left _ (holdsLeft_pos hp)))

/-- The exit of a phase ends one hold of the transmission and starts the next at DLY = 0. -/
theorem phase_exit_ends_hold {s : State} (hp : s.ph ≠ .idle) :
    ∃ i t, decode (.seq (phaseCode s.ph)) = .ok i ∧ exec i s = .next t ∧
      holdsLeft s = holdsLeft t + 1 ∧ t.dly = 0 ∧ t.cfg = s.cfg ∧ t.host = s.host := by
  cases hph : s.ph with
  | idle => exact absurd hph hp
  | dset => exact ⟨_, _, decode_phaseCode .dset, exec_phDset hph, by simp [holdsLeft, hph, lineWrite_sclk_high_eq]⟩
  | ckhi => exact ⟨_, _, decode_phaseCode .ckhi, exec_phCkhi hph, by simp [holdsLeft, hph]⟩
  | cklo =>
    rcases Nat.eq_zero_or_pos s.biti.val with hb | hb
    · exact ⟨_, _, decode_phaseCode .cklo, exec_phCklo_last_bit hph hb, by simp [holdsLeft, hph, hb]⟩
    · have hprev : s.biti.val = (prevBit s.biti).val + 1 := by simp only [prevBit]; omega
      exact ⟨_, _, decode_phaseCode .cklo, exec_phCklo_next_bit hph hprev, by simp [holdsLeft, hph, hprev, Nat.mul_succ]⟩
  | ltlo => exact ⟨_, _, decode_phaseCode .ltlo, exec_phLtlo hph, by simp [holdsLeft, hph, lineWrite_latch_high_eq]⟩
  | lthi => exact ⟨_, _, decode_phaseCode .lthi, exec_phLthi hph, by simp [holdsLeft, hph]⟩

/-- Outside IDLE a cycle without reset leaves one cycle less. -/
theorem step_cyclesLeft {s : State} (hs : HoldCounted s) (hh : noReset s.host) (hp : s.ph ≠ .idle) :
    ∃ t, step s = .next t ∧ noReset t.host ∧ cyclesLeft s = cyclesLeft t + 1 := by
  have hb : busy s = true := by simpa [busy] using hp
  have hr := pins_rst_of_noReset hh
  have hbelow := hs.below
  cases hd : holdDone s with
  | false =>
    refine ⟨_, step_counts_hold hb hr hd, noReset_hostAfter hh, ?_⟩
    have hmul := Nat.le_mul_of_pos_left s.cfg.settleCycles (holdsLeft_pos hp)
    have hrunning : s.dly + 1 < s.cfg.settleCycles := by simpa [holdDone] using hd
    have hleft : cyclesLeft { s with dly := s.dly + 1, host := hostAfter s } =
        holdsLeft s * s.cfg.settleCycles - (s.dly + 1) := rfl
    rw [hleft, cyclesLeft]
    omega
  | true =>
    obtain ⟨i, t, hi, hx, hholds, hdly, hcfg, hhost⟩ := phase_exit_ends_hold (s := { s with host := hostAfter s }) hp
    refine ⟨t, (step_exits_phase hb hr hd hi).trans hx, by rw [hhost]; exact noReset_hostAfter hh, ?_⟩
    have hlast : s.cfg.settleCycles ≤ s.dly + 1 := by simpa [holdDone] using hd
    have hholds' : holdsLeft s = holdsLeft t + 1 := hholds
    rw [cyclesLeft, cyclesLeft, hholds', hdly, hcfg, Nat.succ_mul]
    dsimp only
    omega

theorem runCycles_cyclesLeft (k : Nat) {s : State} (hs : HoldCounted s) (hh : noReset s.host) (hk : k ≤ cyclesLeft s) :
    ∃ t, runCycles k s = .next t ∧ HoldCounted t ∧ cyclesLeft s = cyclesLeft t + k := by
  induction k generalizing s with
  | zero => exact ⟨s, rfl, hs, rfl⟩
  | succ k ih =>
    have hp : s.ph ≠ .idle := fun hp => by rw [cyclesLeft_of_idle hp] at hk; omega
    obtain ⟨t, hstep, hht, hleft⟩ := step_cyclesLeft hs hh hp
    obtain ⟨u, hrun, hu, hleft'⟩ := ih (stepKeepsTheHoldCounter s t hs hstep) hht (by omega)
    exact ⟨u, (runCycles_succ_of_step hstep k).trans hrun, hu, by omega⟩

/-- Settles O45: IDLE is where no cycle is left. -/
theorem everyTransmissionEndsInSixtyTwoHolds : Obligations.EveryTransmissionEndsInSixtyTwoHolds := by
  unfold Obligations.EveryTransmissionEndsInSixtyTwoHolds
  refine ⟨fun s k hs hh hk _ => ?_, fun s t now hp hd h => ?_⟩
  · obtain ⟨t, hrun, ht, hleft⟩ := runCycles_cyclesLeft k hs hh hk
    refine ⟨t, hrun, fun hidle => ?_, fun hall => ?_⟩
    · rw [cyclesLeft_of_idle hidle] at hleft
      omega
    · by_contra hp
      have := ht.cyclesLeft_pos hp
      omega
  · obtain rfl := Host.Outcome.next.inj ((execTick_of_due hp hd).symm.trans h)
    rfl

/-! ## The bits sent, as an invariant (R133) -/

/-- Where nothing has been sent, the chip may hold anything. -/
theorem chipHasSentBits_of_none_sent {s : State} (hb : bitsSent s = 0) (hp : s.ph ≠ .lthi) : ChipHasSentBits s :=
  ⟨fun k hk => by omega, fun h => absurd h hp⟩

/-- An operation that leaves XSR, SHW and the number of bits sent keeps the bits in the chip. -/
theorem ChipHasSentBits.of_same_bits {s t : State} (hs : ChipHasSentBits s) (hx : t.xsr = s.xsr) (hw : t.shw = s.shw)
    (hb : bitsSent t = bitsSent s) (hp : t.ph ≠ .lthi) : ChipHasSentBits t :=
  ⟨by rw [hb, hx, hw]; exact hs.xsr, fun h => absurd h hp⟩

/-- The exit of DSET shifts the next bit of SHW in. -/
theorem ChipHasSentBits.dset_exit {s : State} (hs : ChipHasSentBits s) (hl : LinesByPhase s) (hp : s.ph = .dset) :
    ChipHasSentBits (enterPhase .ckhi (lineWrite .sclk true (hold s))) := by
  have hclk : s.sclk = false := by rw [hl.sclk, hp]; rfl
  have hxsr := hs.xsr
  have := s.biti.isLt
  refine ⟨fun k hk => ?_, nofun⟩
  simp only [bitsSent, lineWrite_sclk_high_eq, enterPhase_ph, enterPhase_biti, enterPhase_xsr, enterPhase_shw, hold_biti,
    hold_shw, hold_sclk, hold_xsr, hold_data, hp, hclk, hl.data, Bool.false_eq_true, if_false] at hxsr hk ⊢
  cases k with
  | zero => rw [getLsbD_shift_zero, serialBit, show 20 - (20 - s.biti.val) + 0 = s.biti.val by omega]
  | succ k =>
    rw [getLsbD_shift_succ _ _ _ (by omega), hxsr k (by omega),
      show 20 - (20 - s.biti.val) + (k + 1) = 20 - (19 - s.biti.val) + k by omega]

theorem Effect.keeps_sentBits {i : Instr} {s t : State} (h : Effect i s t) (hl : LinesByPhase s) (hs : ChipHasSentBits s) :
    ChipHasSentBits t := by
  cases h with
  | none | bufwr | enc => exact ⟨hs.xsr, hs.xout⟩
  | reset => rw [resetBlock_eq]; exact chipHasSentBits_of_none_sent rfl (by simp)
  | tick => exact chipHasSentBits_of_none_sent rfl (by simp [startTransmission_eq])
  | transmit w hp =>
    obtain ⟨x, l, hw⟩ := transmitWord_eq w s
    rw [hw]
    exact chipHasSentBits_of_none_sent (by simp [bitsSent, hp]) (by simp [hp])
  | dset hp => exact hs.dset_exit hl hp
  | ckhi hp => exact hs.of_same_bits rfl rfl (by simp [bitsSent, hp]) (by simp)
  | ckloNextBit hp hb =>
    have hnext : 19 - (s.biti.val - 1) = 20 - s.biti.val := by omega
    exact hs.of_same_bits rfl rfl (by simp [bitsSent, hp, prevBit, hnext]) (by simp)
  | ckloLastBit hp hb => exact hs.of_same_bits rfl rfl (by simp [bitsSent, hp, hb]) (by simp)
  | ltlo hp =>
    have hlatch : s.latch = false := by simpa [hp] using hl.latch
    have hword := hs.xsr_eq_shw hp
    constructor <;> simp [lineWrite_latch_high_eq, bitsSent, hlatch, hword]
  | lthi => exact chipHasSentBits_of_none_sent rfl (by simp)

/-- Settles O48: with the line levels, which every step keeps too, every operation keeps the bits sent in the chip. -/
theorem stepKeepsSentBitsInTheChip : Obligations.StepKeepsSentBitsInTheChip := by
  unfold Obligations.StepKeepsSentBitsInTheChip
  intro s t hl hs h
  have hkept := step_keeps (P := fun u => LinesByPhase u ∧ ChipHasSentBits u)
    (fun u _ _ ⟨hl, hs⟩ => ⟨⟨hl.data, hl.sclk, hl.latch, hl.rest⟩, ⟨hs.xsr, hs.xout⟩⟩)
    (fun i u v he ⟨hl, hs⟩ => ⟨he.keeps_lines hl, he.keeps_sentBits hl hs⟩)
    (fun u _ _ ⟨hl, hs⟩ => ⟨⟨hl.data, hl.sclk, hl.latch, hl.rest⟩, ⟨hs.xsr, hs.xout⟩⟩) h ⟨hl, hs⟩
  exact hkept.2

end Sys2Proof.Machine

/-! O22 to O27, O53 to O55: the scheduler (R150 to R166). A TICK is split by `due`; the word of an advance and the whole of a due TICK at
the operation level are written out once; what a list of due ticks does is then an induction over the list. -/

namespace Sys2Proof.Machine

/-! ## Due or not (R151, R152) -/

theorem due_iff_five_le {now : Millis} {s : State} : due now s = true ↔ 5#32 ≤ now - s.tlast :=
  decide_eq_true_iff

theorem not_due_of_lt_five {now : Millis} {s : State} (h : now - s.tlast < 5#32) : due now s = false :=
  eq_false_of_ne_true fun hd => BitVec.not_le.mpr h (due_iff_five_le.mp hd)

/-- R31: the elapsed time as a number. -/
theorem due_iff_elapsed_toNat {now : Millis} {s : State} :
    due now s = true ↔ 5 ≤ (now.toNat + 2 ^ 32 - s.tlast.toNat) % 2 ^ 32 := by
  have := s.tlast.isLt
  rw [due_iff_five_le, BitVec.le_def, BitVec.toNat_sub, show (5#32).toNat = 5 from rfl,
    show now.toNat + 2 ^ 32 - s.tlast.toNat = 2 ^ 32 - s.tlast.toNat + now.toNat by omega]

theorem exec_tick_of_due {s : State} {now : Millis} (hp : s.ph = .idle) (hd : due now s = true) :
    exec (.tick now) s = .next (startTransmission (advanceWord s) now (beginAdvance s)) := by
  have hb : ¬ busy s = true := by simp [busy, hp]
  exact (if_neg hb).trans (if_pos hd)

/-- Settles O22: a due TICK enters DSET, one that is not due leaves the whole state, which is in IDLE. -/
theorem tickAdvancesAtTheThreshold : Obligations.TickAdvancesAtTheThreshold := by
  unfold Obligations.TickAdvancesAtTheThreshold
  intro s now hp
  rw [← due_iff_elapsed_toNat]
  by_cases hd : due now s = true
  · exact ⟨_, exec_tick_of_due hp hd, ⟨fun _ => hd, fun _ => rfl⟩, fun h => absurd rfl h⟩
  · exact ⟨s, exec_tick_of_not_due (eq_false_of_ne_true hd), by simp [hp, hd], fun _ => rfl⟩

/-- Settles O23, by induction on the list: the first tick leaves the state, TLAST with it. -/
theorem ticksNotDueDoNothing : Obligations.TicksNotDueDoNothing := by
  unfold Obligations.TicksNotDueDoNothing
  intro ts s h
  induction ts with
  | nil => rfl
  | cons now ts ih =>
    obtain ⟨hnow, hts⟩ := List.forall_mem_cons.mp h
    rw [List.map_cons, execAll, exec_tick_of_not_due (not_due_of_lt_five hnow)]
    exact ih hts

/-! ## COMPOSE (R154) -/

theorem or_eq_xor_of_and_eq_zero {x y : ShiftWord} (h : x &&& y = 0) : x ||| y = x ^^^ y := by
  apply BitVec.eq_of_getLsbD_eq
  intro i _
  have hi : (x.getLsbD i && y.getLsbD i) = false := by simpa using congrArg (BitVec.getLsbD · i) h
  rw [BitVec.getLsbD_or, BitVec.getLsbD_xor]
  cases hx : x.getLsbD i <;> simp_all

/-- The two digits of a word stand in lanes of their own. -/
theorem upper_and_lower_eq_zero (lo hi : Byte) : hi.setWidth 20 <<< 8 &&& lo.setWidth 20 = (0 : ShiftWord) := by
  apply BitVec.eq_of_getLsbD_eq
  intro i _
  by_cases h : i < 8
  · simp [h]
  · simp [BitVec.getLsbD_of_ge lo i (by omega)]

section Compose
variable {c : Config}

/-- R8 item 3, by bit: a gate-select mask has no bit in the digits' lanes. -/
theorem getLsbD_gateSel_lane (hc : c.gatesOk = true) (g : Fin 3) {i : Nat} (hi : i < 16) : c.gateSel[g].getLsbD i = false := by
  obtain ⟨-, hlanes⟩ := gateSel_of_gatesOk hc g
  have hmask : ∀ i < 16, (0x0FFFF : ShiftWord).getLsbD i = true := by decide
  rw [← Bool.and_true (c.gateSel[g].getLsbD i), ← hmask i hi, ← BitVec.getLsbD_and, hlanes]
  exact BitVec.getLsbD_zero

/-- Under R8 item 3 a word as composed is its three fields side by side. -/
theorem compose_eq_append (hc : c.gatesOk = true) (lo hi : Byte) (g : Fin 3) :
    compose c lo hi g = c.gateSel[g].extractLsb' 16 4 ++ (hi ++ lo) := by
  unfold compose
  rw [← BitVec.setWidth_append_eq_shiftLeft_setWidth_or]
  apply BitVec.eq_of_getLsbD_eq
  intro i hi20
  refine Eq.trans ?_ BitVec.getLsbD_append.symm
  rw [BitVec.getLsbD_or, BitVec.getLsbD_setWidth, BitVec.getLsbD_extractLsb']
  by_cases h : i < 16
  · rw [getLsbD_gateSel_lane hc g h, if_pos h]
    simp [hi20]
  · rw [BitVec.getLsbD_of_ge (hi ++ lo) i (by omega), if_neg h, show 16 + (i - 16) = i by omega]
    simp [show i - 16 < 4 by omega]

/-- The gate-select bits of a word as composed: that of its own gate and no other. -/
theorem compose_and_gateSel_ne_zero_iff (hc : c.gatesOk = true) (lo hi : Byte) (g h : Fin 3) :
    compose c lo hi g &&& c.gateSel[h] ≠ 0 ↔ h = g := by
  obtain ⟨hone, hlanes⟩ := gateSel_of_gatesOk hc h
  have hand : compose c lo hi g &&& c.gateSel[h] = c.gateSel[g] &&& c.gateSel[h] := by
    rw [compose, BitVec.and_or_distrib_right, digits_and_eq_zero lo hi hlanes]
    exact BitVec.zero_or
  rw [hand]
  constructor
  · intro hne
    by_contra hgh
    exact hne (gateSel_and_gateSel hc (Ne.symm hgh))
  · rintro rfl
    obtain ⟨i, hi, hbit⟩ := oneHot_iff.mp hone
    rw [BitVec.and_self, hbit]
    intro hzero
    simpa [hi] using congrArg (BitVec.getLsbD · i) hzero

end Compose

/-- Settles O25: the fields of a word lie side by side, so they can be read back, and no two of the three terms share a bit. -/
theorem composePlacesLanesAndOneGateBit : Obligations.ComposePlacesLanesAndOneGateBit := by
  unfold Obligations.ComposePlacesLanesAndOneGateBit
  refine ⟨fun _ _ _ _ => rfl, fun c lo hi g hc => ?_, by decide⟩
  obtain ⟨-, hgates, -⟩ := hc
  have hdigits := upper_and_lower_eq_zero lo hi
  have hgate := digits_and_eq_zero lo hi (gateSel_of_gatesOk hgates g).2
  refine ⟨?_, ?_, ?_, compose_and_gateSel_ne_zero_iff hgates lo hi g, ?_, ?_⟩
  · rw [compose_eq_append hgates, BitVec.extractLsb'_append_eq_of_add_le (by decide), BitVec.extractLsb'_append_eq_left]
  · rw [compose_eq_append hgates, BitVec.extractLsb'_append_eq_of_add_le (by decide), BitVec.extractLsb'_append_eq_right]
  · rw [compose_eq_append hgates, BitVec.extractLsb'_append_eq_left]
  · rw [← or_eq_xor_of_and_eq_zero hdigits, ← or_eq_xor_of_and_eq_zero hgate, compose]
  · rw [BitVec.add_eq_or_of_and_eq_zero _ _ hdigits, BitVec.add_eq_or_of_and_eq_zero _ _ hgate, compose]

/-! ## The word of an advance (R153, R156) -/

theorem decorate_decoOn (c : Config) (n : Fin 200) (w : ShiftWord) :
    decorate c (decoOn n) w = w ||| (if n.val < 100 then c.decoG1 ||| c.decoG2 else 0) := by
  by_cases h : n.val < 100
  · simp [decorate, decoOn, suppOn, h, BitVec.or_assoc]
  · simp [decorate, decoOn, suppOn, h]

/-- The digits of the old GATE, and both decorative bits exactly if the new SUPP is below 100. -/
theorem advanceWord_eq (s : State) :
    advanceWord s =
      compose s.cfg (segTable s.cfg (s.buf.read s.gate.val)) (segTable s.cfg (s.buf.read (s.gate.val + 3))) s.gate
        ||| (if (nextSupp s.supp).val < 100 then s.cfg.decoG1 ||| s.cfg.decoG2 else 0) :=
  decorate_decoOn s.cfg (nextSupp s.supp) _

/-- Settles O24: the start of the transmission, with the word written out. -/
theorem dueTickStartsItsTransmission : Obligations.DueTickStartsItsTransmission := by
  unfold Obligations.DueTickStartsItsTransmission
  intro s now hp hd
  refine ⟨_, _, nextSupp s.supp, advanceWord s, rfl, rfl, rfl, advanceWord_eq s, ?_⟩
  rw [exec_tick_of_due hp (due_iff_five_le.mpr hd), startTransmission_eq]
  rfl

/-! ## A due TICK as one step (R150) -/

theorem tickAtomic_of_not_due {s : State} {now : Millis} (hd : due now s = false) : tickAtomic now s = s := by
  simp [tickAtomic, hd]

theorem transmitWord_history (w : ShiftWord) (s : State) :
    (transmitWord w s).history = s.history ++ transmissionHistory s.sclk w (transmitWord w s).xsr := by
  simp [transmitWord, latchCell_eq, bitCells_history, transmissionHistory]

theorem transmitWord_xsr (w : ShiftWord) {s : State} (hc : s.sclk = false) : (transmitWord w s).xsr = w := by
  rw [transmitWord, latchCell_eq]
  exact bitCells_twenty_xsr w { s with shw := w } hc

/-- `transmitWord_eq` with its events, and what the chip holds after it (R64). -/
theorem transmitWord_history_chip (w : ShiftWord) (s : State) :
    ∃ x, (s.sclk = false → x = w) ∧ transmitWord w s =
      { s with
        shw := w, biti := 0, dly := 0, data := serialBit w 0, sclk := false, latch := true, xsr := x, xout := x
        history := s.history ++ transmissionHistory s.sclk w x } := by
  refine ⟨(transmitWord w s).xsr, transmitWord_xsr w, ?_⟩
  rw [← transmitWord_history]
  obtain ⟨x, l, hw⟩ := transmitWord_eq w s
  rw [hw]

/-- The whole of a due TICK at the operation level. -/
theorem tickAtomic_eq {s : State} {now : Millis} (hd : due now s = true) :
    ∃ x, (s.sclk = false → x = advanceWord s) ∧ tickAtomic now s =
      { s with
        supp := nextSupp s.supp, shw := advanceWord s, gate := nextGate s.gate, tlast := now, tnow := now
        biti := 0, dly := 0, data := serialBit (advanceWord s) 0, sclk := false, latch := true, xsr := x, xout := x
        history := s.history ++ transmissionHistory s.sclk (advanceWord s) x, reads := s.reads ++ digitReads s } := by
  obtain ⟨x, hx, hw⟩ := transmitWord_history_chip (advanceWord s) (beginAdvance s)
  exact ⟨x, hx, by rw [tickAtomic, if_pos hd, hw]; rfl⟩

/-- Settles O55: the whole of a due TICK, its own events without the chip's. -/
theorem atomicTickWritesOnlyTheStatedState : Obligations.AtomicTickWritesOnlyTheStatedState := by
  unfold Obligations.AtomicTickWritesOnlyTheStatedState
  intro s now hd
  obtain ⟨x, -, ht⟩ := tickAtomic_eq hd
  exact ⟨_, _, x, x, advanceWord s, nextGate s.gate, nextSupp s.supp, rfl, rfl, rfl,
    transmissionHistory_bySrtc s.sclk (advanceWord s) x, rfl, ht⟩

section DueTick
variable {s : State} {now : Millis}

theorem tickAtomic_counters (hd : due now s = true) :
    (tickAtomic now s).gate = nextGate s.gate ∧ (tickAtomic now s).supp = nextSupp s.supp ∧ (tickAtomic now s).tlast = now := by
  obtain ⟨x, -, ht⟩ := tickAtomic_eq hd
  simp [ht]

theorem tickAtomic_shw (hd : due now s = true) : (tickAtomic now s).shw = advanceWord s := by
  obtain ⟨x, -, ht⟩ := tickAtomic_eq hd
  rw [ht]

/-- What the word of the next advance and its transmission rest on besides the counters. -/
theorem tickAtomic_frame (hd : due now s = true) :
    (tickAtomic now s).cfg = s.cfg ∧ (tickAtomic now s).buf = s.buf ∧ (tickAtomic now s).sclk = false := by
  obtain ⟨x, -, ht⟩ := tickAtomic_eq hd
  simp [ht]

/-- R64: the display shows the word of the advance. -/
theorem tickAtomic_xout (hd : due now s = true) (hc : s.sclk = false) : (tickAtomic now s).xout = advanceWord s := by
  obtain ⟨x, hx, ht⟩ := tickAtomic_eq hd
  rw [ht]
  exact hx hc

/-- One word is committed per advance. -/
theorem tickAtomic_commits_length (hd : due now s = true) :
    (commits (tickAtomic now s).history).length = (commits s.history).length + 1 := by
  obtain ⟨x, -, ht⟩ := tickAtomic_eq hd
  rw [ht, commits_append, transmissionHistory, commits_append, commits_cellsHistory]
  simp [commits, List.filterMap_cons, Event.committed]

end DueTick

/-- Settles O26: the word of the advance, by the new SUPP. -/
theorem decorationFollowsTheNewCounter : Obligations.DecorationFollowsTheNewCounter := by
  unfold Obligations.DecorationFollowsTheNewCounter
  intro s now hd
  obtain ⟨-, hsupp, -⟩ := tickAtomic_counters hd
  rw [tickAtomic_shw hd, hsupp, advanceWord_eq]
  refine ⟨fun hon => ?_, fun hoff => ?_⟩
  · rw [if_pos hon, BitVec.or_assoc]
  · rw [if_neg (by omega)]
    exact BitVec.or_zero

/-- R21: TICK and RESET apart, no operation writes SUPP. -/
theorem Effect.supp_eq {i : Instr} {s t : State} (h : Effect i s t) (hi : ∀ now, i ≠ .tick now) (hr : i ≠ .reset) :
    t.supp = s.supp := by
  cases h with
  | tick => exact absurd rfl (hi _)
  | reset => exact absurd rfl hr
  | transmit w => obtain ⟨x, l, hw⟩ := transmitWord_eq w s; rw [hw]
  | _ => simp [lineWrite_sclk_high_eq, lineWrite_latch_high_eq]

/-- Settles O27: the step of the counter, then the tick that is not due, then the effect of every other operation. -/
theorem suppCountsAdvancesModulo200 : Obligations.SuppCountsAdvancesModulo200 := by
  unfold Obligations.SuppCountsAdvancesModulo200
  refine ⟨fun s now hd => ?_, fun s now hd => ?_, fun i s t hi hr h => (effect_of_exec h).supp_eq hi hr⟩
  · obtain ⟨-, hsupp, -⟩ := tickAtomic_counters hd
    rw [hsupp, nextSupp_val]
  · rw [tickAtomic_of_not_due hd]

/-! ## Ticks one after another (R162 to R166) -/

theorem runTicks_cons (now : Millis) (ts : List Millis) (s : State) :
    runTicks (now :: ts) s = runTicks ts (tickAtomic now s) := rfl

theorem runTicks_concat (ts : List Millis) (now : Millis) (s : State) :
    runTicks (ts ++ [now]) s = tickAtomic now (runTicks ts s) := by
  simp [runTicks]

theorem allDue_concat {ts : List Millis} {now : Millis} {s : State} :
    allDue (ts ++ [now]) s ↔ allDue ts s ∧ due now (runTicks ts s) = true := by
  induction ts generalizing s with
  | nil => simp [allDue, runTicks]
  | cons t ts ih => simp [allDue, ih, runTicks_cons, and_assoc]

/-- Settles O53, by induction on the list: the counters and the number of commits move by one with each tick. -/
theorem eachDueTickMakesOneAdvance : Obligations.EachDueTickMakesOneAdvance := by
  unfold Obligations.EachDueTickMakesOneAdvance
  intro ts
  induction ts with
  | nil =>
    intro s _
    exact ⟨(Nat.mod_eq_of_lt s.gate.isLt).symm, (Nat.mod_eq_of_lt s.supp.isLt).symm, rfl, rfl⟩
  | cons now ts ih =>
    rintro s ⟨hd, hts⟩
    obtain ⟨hgate, hsupp, htlast⟩ := tickAtomic_counters hd
    obtain ⟨ihgate, ihsupp, ihtlast, ihcommits⟩ := ih (tickAtomic now s) hts
    rw [runTicks_cons, ihgate, ihsupp, ihtlast, ihcommits, hgate, hsupp, htlast, tickAtomic_commits_length hd,
      List.getLastD_cons, List.length_cons]
    simp only [nextGate, nextSupp]
    exact ⟨by omega, by omega, trivial, by omega⟩

/-- Due ticks leave the configuration and BUF, and SCLK at 0. -/
theorem runTicks_frame {ts : List Millis} {s : State} (h : allDue ts s) (hc : s.sclk = false) :
    (runTicks ts s).cfg = s.cfg ∧ (runTicks ts s).buf = s.buf ∧ (runTicks ts s).sclk = false := by
  induction ts generalizing s with
  | nil => exact ⟨rfl, rfl, hc⟩
  | cons now ts ih =>
    obtain ⟨hd, hts⟩ := h
    obtain ⟨hcfg, hbuf, hsclk⟩ := tickAtomic_frame hd
    obtain ⟨ihcfg, ihbuf, ihsclk⟩ := ih hts hsclk
    exact ⟨ihcfg.trans hcfg, ihbuf.trans hbuf, ihsclk⟩

/-- Settles O54: the last tick shows the word of the state that the ticks before it leave. -/
theorem kthAdvanceShowsItsWord : Obligations.KthAdvanceShowsItsWord := by
  unfold Obligations.KthAdvanceShowsItsWord
  intro ts now s g hgate hsupp hc hdue hg
  obtain ⟨hts, hd⟩ := allDue_concat.mp hdue
  obtain ⟨hgate', hsupp', -⟩ := eachDueTickMakesOneAdvance ts s hts
  obtain ⟨hcfg, hbuf, hsclk⟩ := runTicks_frame hts hc
  have hturn : (runTicks ts s).gate = g := Fin.ext (by simp [hgate', hgate, hg])
  have hcount : (nextSupp (runTicks ts s).supp).val = (ts.length + 1) % 200 := by simp [nextSupp, hsupp', hsupp]
  rw [runTicks_concat, tickAtomic_xout hd hsclk, advanceWord_eq, hcfg, hbuf, hturn, hcount]

end Sys2Proof.Machine

/-! O5 to O9, O12 to O18, O35, O57: the host interface (R180 to R187). Which operation a cycle selects is said once, by `fetch_cases`;
what a busy cycle does, under every script of the host at once, by `step_of_busy`. RESET is read off `resetBlock_eq`, and the commands
off one equation per case of `exec`. -/

namespace Sys2Proof.Machine

/-! ## Which operation a cycle selects (R181, R187) -/

section Selection
variable {s : State}

theorem fetch_of_rst_high (hr : s.pins.rst = true) : fetch s = some (.pin 1#1) :=
  if_pos hr

theorem fetch_of_command {w : CmdWord} (hr : s.pins.rst = false) (hp : s.ph = .idle) (hb : s.bench = none)
    (hc : s.pins.cmd = some w) : fetch s = some (.cmd w) := by
  simp [fetch, busy, hr, hp, hb, hc]

/-- Whatever a cycle selects, and when: RESET; the exit of a phase whose hold is done; in IDLE the requested INT operation, the
presented command, or PH.IDLE. -/
theorem fetch_cases {e : EncWord} (h : fetch s = some e) :
    (s.pins.rst = true ∧ e = .pin 1#1) ∨
    (s.pins.rst = false ∧ s.ph ≠ .idle ∧ holdDone s = true ∧ e = .seq (phaseCode s.ph)) ∨
    (s.pins.rst = false ∧ s.ph = .idle ∧
      ((∃ op, s.bench = some op ∧ e = op.word) ∨
       (∃ w, s.bench = none ∧ s.pins.cmd = some w ∧ e = .cmd w) ∨
       (s.bench = none ∧ s.pins.cmd = none ∧ e = .seq (phaseCode s.ph)))) := by
  unfold fetch at h
  split at h
  next hr => exact .inl ⟨hr, (Option.some.inj h).symm⟩
  next hr =>
    replace hr := eq_false_of_ne_true hr
    split at h
    next hb =>
      split at h
      next hd => exact .inr (.inl ⟨hr, by simpa [busy] using hb, hd, (Option.some.inj h).symm⟩)
      next => cases h
    next hb =>
      refine .inr (.inr ⟨hr, ph_eq_idle_of_not_busy hb, ?_⟩)
      split at h
      next op hop => exact .inl ⟨op, hop, (Option.some.inj h).symm⟩
      next hop =>
        split at h
        next w hc => exact .inr (.inl ⟨w, hop, hc, (Option.some.inj h).symm⟩)
        next hc => exact .inr (.inr ⟨hop, hc, (Option.some.inj h).symm⟩)

/-- R187: a command is selected only with `rst = 0` in IDLE. -/
theorem ready_of_fetch_command {w : CmdWord} (h : fetch s = some (.cmd w)) : s.pins.rst = false ∧ s.ph = .idle := by
  rcases fetch_cases h with ⟨-, he⟩ | ⟨-, -, -, he⟩ | ⟨hr, hp, -⟩
  · cases he
  · cases he
  · exact ⟨hr, hp⟩

/-- R129, R187: a phase operation is selected only with `rst = 0`, and in IDLE only without a command. -/
theorem no_command_of_fetch_phase {p : BitVec 3} (h : fetch s = some (.seq p)) :
    s.pins.rst = false ∧ (s.ph = .idle → s.pins.cmd = none) := by
  rcases fetch_cases h with ⟨-, he⟩ | ⟨hr, hp, -⟩ | ⟨hr, -, ⟨op, -, he⟩ | ⟨w, -, -, he⟩ | ⟨-, hc, -⟩⟩
  · cases he
  · exact ⟨hr, fun hi => absurd hi hp⟩
  · cases op <;> cases he
  · cases he
  · exact ⟨hr, fun _ => hc⟩

theorem step_of_fetch {e : EncWord} {i : Instr} (hf : fetch s = some e) (hi : decode e = .ok i) :
    step s = exec i (afterFetch s) := by
  simp only [step, hf, hi]

theorem step_of_no_fetch (hf : fetch s = none) : step s = .next (countHold (afterFetch s)) := by
  simp only [step, hf]

theorem cmdReady_iff {rst : Bool} : (outputs rst s).cmdReady = true ↔ s.ph = .idle ∧ rst = false := by
  simp [outputs, busy]

end Selection

/-! ## A cycle while the port is not ready (R181) -/

section Busy
variable {s : State}

theorem noReset_take_one_iff {h : List HostCycle} :
    noReset (h.take 1) ↔ (h.headD HostCycle.quiet).rst = false := by
  cases h <;> simp [noReset, HostCycle.quiet]

/-- No line and no chip looks at the host's script. -/
theorem lineWrite_with_host (l : Line) (b : Level) (h : List HostCycle) (s : State) :
    lineWrite l b { s with host := h } = { lineWrite l b s with host := h } := by
  cases l with
  | data => rfl
  | sclk =>
    cases b with
    | false => rfl
    | true => simp only [lineWrite_sclk_high_eq]
  | latch =>
    cases b with
    | false => rfl
    | true => simp only [lineWrite_latch_high_eq]

theorem lineExit_with_host (p : Phase) (l : Line) (b : Level) (h : List HostCycle) (s : State) :
    enterPhase p (lineWrite l b (hold { s with host := h })) = { enterPhase p (lineWrite l b (hold s)) with host := h } :=
  congrArg (enterPhase p) (lineWrite_with_host l b h (hold s))

/-- The exit of a phase does not look at the host's script. -/
theorem phase_exit_with_host {p : Phase} (hp : s.ph = p) (hne : p ≠ .idle) :
    ∃ (i : Instr) (t : State), decode (.seq (phaseCode p)) = .ok i ∧
      ∀ h, exec i { s with host := h } = .next { t with host := h } := by
  cases p with
  | idle => exact absurd rfl hne
  | dset =>
    exact ⟨.phDset, enterPhase .ckhi (lineWrite .sclk true (hold s)), decode_phaseCode .dset, fun h =>
      (exec_phDset (s := { s with host := h }) hp).trans (congrArg _ (lineExit_with_host ..))⟩
  | ckhi =>
    exact ⟨.phCkhi, enterPhase .cklo (lineWrite .sclk false (hold s)), decode_phaseCode .ckhi, fun h =>
      exec_phCkhi (s := { s with host := h }) hp⟩
  | cklo =>
    rcases Nat.eq_zero_or_pos s.biti.val with hb | hb
    · exact ⟨.phCklo, enterPhase .ltlo (lineWrite .latch false (hold s)), decode_phaseCode .cklo, fun h =>
        exec_phCklo_last_bit (s := { s with host := h }) hp hb⟩
    · have hprev : s.biti.val = (prevBit s.biti).val + 1 := by simp only [prevBit]; omega
      exact ⟨.phCklo,
        enterPhase .dset (lineWrite .data (serialBit s.shw (prevBit s.biti).val) { hold s with biti := prevBit s.biti }),
        decode_phaseCode .cklo, fun h => exec_phCklo_next_bit (s := { s with host := h }) hp hprev⟩
  | ltlo =>
    exact ⟨.phLtlo, enterPhase .lthi (lineWrite .latch true (hold s)), decode_phaseCode .ltlo, fun h =>
      (exec_phLtlo (s := { s with host := h }) hp).trans (congrArg _ (lineExit_with_host ..))⟩
  | lthi =>
    exact ⟨.phLthi, enterPhase .idle (completeAdvance s.tnow (hold s)), decode_phaseCode .lthi, fun h =>
      exec_phLthi (s := { s with host := h }) hp⟩

/-- Outside IDLE a cycle without reset does the same under every script, but for the script itself: it counts the hold or takes the
exit of the phase. -/
theorem step_of_busy (hb : busy s = true) :
    ∃ t : State, ∀ h : List HostCycle, (h.headD HostCycle.quiet).rst = false →
      step { s with host := h } = .next { t with host := hostAfter { s with host := h } } := by
  cases hd : holdDone s with
  | false => exact ⟨{ s with dly := s.dly + 1 }, fun h hr => step_counts_hold (s := { s with host := h }) hb hr hd⟩
  | true =>
    obtain ⟨i, t, hi, hx⟩ := phase_exit_with_host (s := s) rfl (by simpa [busy] using hb)
    exact ⟨t, fun h hr => (step_exits_phase (s := { s with host := h }) hb hr hd hi).trans (hx _)⟩

/-- R181: the script of a busy port moves on, but for a command that the host keeps. -/
theorem hostAfter_of_busy {c : HostCycle} {rest : List HostCycle} {w : CmdWord} (hh : s.host = c :: rest)
    (hr : c.rst = false) (hc : c.cmd = some w) (hb : busy s = true) :
    hostAfter s = if c.keep then c :: rest else rest := by
  cases c
  cases hr
  cases hc
  simp [hostAfter, accepting, hh, hb]

end Busy

/-- Settles O7: the cycle is the same under both scripts, by `step_of_busy`. -/
theorem busyPortIgnoresCommands : Obligations.BusyPortIgnoresCommands := by
  unfold Obligations.BusyPortIgnoresCommands
  intro s h₁ h₂ hb hr₁ hr₂
  obtain ⟨t, ht⟩ := step_of_busy hb
  exact ⟨t, ht h₁ (noReset_take_one_iff.mp hr₁), ht h₂ (noReset_take_one_iff.mp hr₂)⟩

/-- Settles O5: the two cases of a step, by what is selected. -/
theorem stepRunsTheSelectedOperation : Obligations.StepRunsTheSelectedOperation := by
  unfold Obligations.StepRunsTheSelectedOperation
  exact ⟨fun _ _ _ => step_of_fetch, fun _ => step_of_no_fetch, afterFetch_eq⟩

/-- Settles O6: the ready port carries the command out in the cycle that presents it. -/
theorem readyPortAcceptsThePresentedCommand : Obligations.ReadyPortAcceptsThePresentedCommand := by
  unfold Obligations.ReadyPortAcceptsThePresentedCommand
  exact fun _ _ _ _ => step_accepts_command

/-- Settles O8: a busy cycle leaves the script as the host's `keep` says. -/
theorem keptCommandWaitsForReady : Obligations.KeptCommandWaitsForReady := by
  unfold Obligations.KeptCommandWaitsForReady
  intro s c rest w hh hr hc hb
  obtain ⟨t, ht⟩ := step_of_busy hb
  exact ⟨_, ht s.host (by simpa [hh] using hr), hostAfter_of_busy hh hr hc hb⟩

/-- Settles O9: reset comes first in `fetch`, and the two cases of IDLE exclude each other. -/
theorem resetBeatsCommandAndPhase : Obligations.ResetBeatsCommandAndPhase := by
  unfold Obligations.ResetBeatsCommandAndPhase
  refine ⟨fun s hr => ⟨?_, ?_, ?_⟩, fun _ _ => ready_of_fetch_command, fun _ _ => no_command_of_fetch_phase⟩
  · exact step_of_fetch (fetch_of_rst_high hr) rfl
  · simp [accepting, hr]
  · simp [outputs, hr]

/-- Settles O57: a command can be selected only by a ready port, and a ready port without a request of the model selects it. -/
theorem portsShowReadyAndTheLineRegisters : Obligations.PortsShowReadyAndTheLineRegisters := by
  unfold Obligations.PortsShowReadyAndTheLineRegisters
  refine ⟨fun rst s => ⟨cmdReady_iff, rfl, rfl, rfl⟩, fun s w hb hc => ?_⟩
  rw [cmdReady_iff]
  constructor
  · intro hf
    exact (ready_of_fetch_command hf).symm
  · rintro ⟨hp, hr⟩
    exact fetch_of_command hr hp hb hc

/-! ## RESET (R186) -/

theorem exec_reset (s : State) : exec .reset s = .next (resetBlock s) := rfl

/-- Settles O12: RESET written out. -/
theorem resetGivesTheStatedValues : Obligations.ResetGivesTheStatedValues := by
  unfold Obligations.ResetGivesTheStatedValues
  intro s
  rw [exec_reset, resetBlock_eq]

/-- Settles O13: LATCH is low in LTLO only, where XSR is the whole word. -/
theorem resetNeverCommitsAPartialWord : Obligations.ResetNeverCommitsAPartialWord := by
  unfold Obligations.ResetNeverCommitsAPartialWord
  intro s t hl hs h
  obtain rfl := Host.Outcome.next.inj h
  rw [resetBlock_eq]
  refine ⟨rfl, fun hp => ?_, fun hp => ?_⟩
  · have hlatch : s.latch = true := hl.latch.trans (bne_iff_ne.mpr hp)
    simp [hlatch, commits, Event.committed]
  · have hlatch : s.latch = false := by simpa [hp] using hl.latch
    simp [hlatch, hs.xsr_eq_shw hp, commits, List.filterMap_cons, Event.committed]

/-! ## NOP and the reserved command (R182, R185) -/

theorem exec_nop (s : State) : exec .nop s = .next s := rfl

theorem exec_rsvd3 (s : State) : exec .rsvd3 s = .next s := rfl

theorem decodeCmd_nop {w : CmdWord} (h : cmdOp w = 0#2) : decodeCmd w = .nop := by
  simp [decodeCmd, h]

theorem decodeCmd_rsvd3 {w : CmdWord} (h : cmdOp w = 3#2) : decodeCmd w = .rsvd3 := by
  simp [decodeCmd, h]

/-- Settles O14: the op field alone decides. -/
theorem nopChangesNothing : Obligations.NopChangesNothing := by
  unfold Obligations.NopChangesNothing
  exact ⟨fun _ hop => congrArg _ (decodeCmd_nop hop), exec_nop⟩

/-- Settles O15: as O14, with the reserved op. -/
theorem reservedCommandActsAsNop : Obligations.ReservedCommandActsAsNop := by
  unfold Obligations.ReservedCommandActsAsNop
  refine ⟨fun _ hop => congrArg _ (decodeCmd_rsvd3 hop), fun s => ⟨exec_rsvd3 s, ?_⟩⟩
  rw [exec_rsvd3, exec_nop]

/-! ## BUFWR (R183, R184), and operations that are not selected (R181, R120, R121) -/

theorem exec_bufwr_of_busy {s : State} (idx : BitVec 3) (code : Byte) (hb : busy s = true) :
    exec (.bufwr idx code) s = .next s :=
  if_pos hb

theorem exec_bufwr_within {s : State} {idx : BitVec 3} (code : Byte) (hp : s.ph = .idle) (hi : idx.toNat ≤ 5) :
    exec (.bufwr idx code) s = .next { s with buf := s.buf.write idx.toNat code } := by
  simp [exec, execBufwr, busy, hp, hi]

theorem exec_bufwr_beyond (s : State) {idx : BitVec 3} (code : Byte) (hi : ¬ idx.toNat ≤ 5) :
    exec (.bufwr idx code) s = .next s := by
  by_cases hb : busy s = true
  · exact exec_bufwr_of_busy idx code hb
  · exact (if_neg hb).trans (if_neg hi)

/-- Settles O16: the memory after the write. -/
theorem bufwrWritesOneEntryAndNothingElse : Obligations.BufwrWritesOneEntryAndNothingElse := by
  unfold Obligations.BufwrWritesOneEntryAndNothingElse
  intro s idx code hp hi
  exact ⟨_, exec_bufwr_within code hp hi, Memory.read_write_same .., fun a ha => Memory.read_write_other _ _ _ _ ha⟩

/-- Settles O17: 6 and 7 are beyond the six entries. -/
theorem bufwrBeyondTheBufferWritesNothing : Obligations.BufwrBeyondTheBufferWritesNothing := by
  unfold Obligations.BufwrBeyondTheBufferWritesNothing
  rintro s idx code (rfl | rfl)
  · exact exec_bufwr_beyond s code (by decide)
  · exact exec_bufwr_beyond s code (by decide)

/-- R33: BUFWR apart, no operation writes BUF. -/
theorem Effect.buf_eq {i : Instr} {s t : State} (h : Effect i s t) (hi : ∀ idx code, i ≠ .bufwr idx code) : t.buf = s.buf := by
  cases h with
  | bufwr => exact absurd rfl (hi _ _)
  | transmit w => obtain ⟨x, l, hw⟩ := transmitWord_eq w s; rw [hw]
  | _ => simp [resetBlock_eq, startTransmission_eq, lineWrite_sclk_high_eq, lineWrite_latch_high_eq]

/-- Settles O18, by the effect of each operation on BUF. -/
theorem onlyBufwrChangesBuf : Obligations.OnlyBufwrChangesBuf := by
  unfold Obligations.OnlyBufwrChangesBuf
  exact fun _ _ _ h hi => (effect_of_exec h).buf_eq hi

/-- Settles O35: the guard of each operation fails. -/
theorem unselectedOperationsHaveNoEffect : Obligations.UnselectedOperationsHaveNoEffect := by
  unfold Obligations.UnselectedOperationsHaveNoEffect
  refine ⟨fun s now idx code w hb => ⟨if_pos hb, exec_bufwr_of_busy idx code hb, if_pos hb⟩, fun s => ?_⟩
  exact ⟨fun hp => if_neg hp, fun hp => if_neg hp, fun hp => if_neg hp, fun hp => if_neg hp, fun hp => if_neg hp⟩

end Sys2Proof.Machine

/-! O10, O46: no exceptions (R200, R206, R216), and a run that ends (R247). Whatever a cycle selects decodes, and every operation
answers. What is left of a run is a pair, the host's part before the block's part, and every cycle makes it less in the lexicographic
order until the run has ended. -/

namespace Sys2Proof.Machine

/-! ## Every step answers (R206, R216) -/

/-- No cycle selects a word that the decoder rejects. -/
theorem decodes_of_fetch {s : State} {e : EncWord} (h : fetch s = some e) : ∃ i, decode e = .ok i := by
  rcases fetch_cases h with ⟨-, rfl⟩ | ⟨-, -, -, rfl⟩ | ⟨-, -, ⟨op, -, rfl⟩ | ⟨w, -, -, rfl⟩ | ⟨-, -, rfl⟩⟩
  · exact ⟨.reset, rfl⟩
  · exact ⟨_, decode_phaseCode s.ph⟩
  · cases op with
    | enc c => exact ⟨.enc c, rfl⟩
    | transmit w => exact ⟨.transmit w, rfl⟩
  · exact ⟨decodeCmd w, rfl⟩
  · exact ⟨_, decode_phaseCode s.ph⟩

theorem exec_answers (i : Instr) (s : State) : ∃ t, exec i s = .next t := by
  obtain ⟨t, ht, -⟩ := exec_answers_effect i s
  exact ⟨t, ht⟩

theorem step_answers (s : State) : ∃ t, step s = .next t := by
  cases hf : fetch s with
  | none => exact ⟨_, step_of_no_fetch hf⟩
  | some e =>
    obtain ⟨i, hi⟩ := decodes_of_fetch hf
    rw [step_of_fetch hf hi]
    exact exec_answers i (afterFetch s)

/-- Settles O10: every operation answers with one of its effects, and a step is an operation or a counted cycle. -/
theorem everyStepAnswersANextState : Obligations.EveryStepAnswersANextState := by
  unfold Obligations.EveryStepAnswersANextState
  exact ⟨exec_answers, step_answers⟩

/-! ## What is left of a run -/

/-- The host's part: each entry of the script counts two, for it may be kept for one cycle more when it comes with a reset (log 21). -/
def hostLeft (s : State) : Nat := 2 * s.host.length + s.pins.rst.toNat

/-- The block's part, while the script stands still: the cycles of the transmission, and one for a requested INT operation (log 12). -/
def blockLeft (s : State) : Nat := cyclesLeft s + s.bench.isSome.toNat

section Left
variable {s t : State}

/-- The script and the request move on as `afterFetch` says, whatever the cycle carries out. -/
theorem step_moves_script (h : step s = .next t) : t.host = hostAfter s ∧ t.bench = benchAfter s := by
  rcases step_effect h with ⟨i, he, -⟩ | ⟨-, -, rfl⟩
  · obtain ⟨-, hhost, hbench⟩ := he.frame
    exact ⟨hhost, hbench⟩
  · exact ⟨rfl, rfl⟩

/-- R181: the first entry of the script goes, or the host keeps it, with `rst` released, because it was not accepted. -/
theorem hostAfter_cons {c : HostCycle} {rest : List HostCycle} (hh : s.host = c :: rest) :
    hostAfter s = rest ∨ (hostAfter s = { c with rst := false } :: rest ∧ accepting s = false) := by
  simp only [hostAfter, hh]
  split
  next hk =>
    simp only [Bool.and_eq_true, Bool.not_eq_true'] at hk
    exact .inr ⟨rfl, hk.2⟩
  next => exact .inl rfl

theorem hostLeft_of_cons {c : HostCycle} {rest : List HostCycle} (hh : s.host = c :: rest) :
    hostLeft s = 2 * (rest.length + 1) + c.rst.toNat := by
  simp [hostLeft, State.pins, hh]

theorem hostLeft_le (s : State) : hostLeft s ≤ 2 * s.host.length + 1 :=
  Nat.add_le_add_left (Bool.toNat_le _) _

/-- A port that does not accept, with no reset, is busy or has a request of the model before the host. -/
theorem busy_or_request_of_not_accepting (hr : s.pins.rst = false) (ha : accepting s = false) :
    s.ph ≠ .idle ∨ s.bench.isSome = true := by
  cases hb : s.bench with
  | none => exact .inl (by simpa [accepting, hr, hb, busy] using ha)
  | some op => exact .inr rfl

/-- Until the run has ended, the host's part becomes less, or it stands still without a reset while the block has work left. -/
theorem step_hostLeft (h : step s = .next t) (he : ¬ runEnded s) :
    hostLeft t < hostLeft s ∨ (hostLeft t = hostLeft s ∧ s.pins.rst = false ∧ (s.ph ≠ .idle ∨ s.bench.isSome = true)) := by
  obtain ⟨hhost, -⟩ := step_moves_script h
  cases hh : s.host with
  | nil =>
    have hhost' : t.host = [] := by simpa [hostAfter, hh] using hhost
    refine .inr ⟨by simp [hostLeft, State.pins, hh, hhost'], by simp [State.pins, hh, HostCycle.quiet], ?_⟩
    by_contra hdone
    push Not at hdone
    obtain ⟨hp, hb⟩ := hdone
    exact he ⟨hh, by simpa using hb, hp⟩
  | cons c rest =>
    have hleft := hostLeft_of_cons hh
    rcases hostAfter_cons hh with hgone | ⟨hkept, ha⟩
    · have hle := hostLeft_le t
      rw [hhost, hgone] at hle
      exact .inl (by omega)
    · have hleft' := hostLeft_of_cons (hhost.trans hkept)
      have hpins : s.pins.rst = c.rst := by simp [State.pins, hh]
      cases hr : c.rst with
      | true => exact .inl (by simp [hleft, hleft', hr])
      | false => exact .inr ⟨by simp [hleft, hleft', hr], hpins.trans hr, busy_or_request_of_not_accepting (hpins.trans hr) ha⟩

/-- Outside IDLE a cycle without reset leaves one cycle less, whatever comes later in the script. -/
theorem step_cyclesLeft_of_rst_low (hs : HoldCounted s) (hr : s.pins.rst = false) (hp : s.ph ≠ .idle) (h : step s = .next t) :
    cyclesLeft s = cyclesLeft t + 1 := by
  obtain ⟨u, hu⟩ := step_of_busy (s := s) (by simpa [busy] using hp)
  have hquiet : HoldCounted { s with host := [] } := ⟨hs.below, hs.rest⟩
  obtain ⟨v, hv, -, hleft⟩ := step_cyclesLeft hquiet (List.forall_mem_nil _) hp
  obtain rfl := Host.Outcome.next.inj (hv.symm.trans (hu [] rfl))
  obtain rfl := Host.Outcome.next.inj (h.symm.trans (hu s.host hr))
  exact hleft

/-- In IDLE a requested INT operation is the one that the cycle carries out (log 12). -/
theorem step_of_request (hr : s.pins.rst = false) (hp : s.ph = .idle) (hb : s.bench.isSome = true) :
    ∃ i, (∀ now, i ≠ .tick now) ∧ step s = exec i (afterFetch s) := by
  obtain ⟨op, hop⟩ := Option.isSome_iff_exists.mp hb
  have hf : fetch s = some op.word := by simp [fetch, busy, hr, hp, hop]
  cases op with
  | enc c => exact ⟨.enc c, by simp, step_of_fetch hf rfl⟩
  | transmit w => exact ⟨.transmit w, by simp, step_of_fetch hf rfl⟩

theorem step_of_request_stays_idle (hr : s.pins.rst = false) (hp : s.ph = .idle) (hb : s.bench.isSome = true)
    (h : step s = .next t) : t.ph = .idle := by
  obtain ⟨i, hi, hx⟩ := step_of_request hr hp hb
  by_contra ht
  obtain ⟨⟨now, htick⟩, -⟩ := (effect_of_exec (hx.symm.trans h)).tick_of_leaves_idle hp ht
  exact hi now htick

/-- While the block has work left, a cycle without reset makes it less. -/
theorem step_blockLeft (hs : HoldCounted s) (hr : s.pins.rst = false) (hw : s.ph ≠ .idle ∨ s.bench.isSome = true)
    (h : step s = .next t) : blockLeft t < blockLeft s := by
  obtain ⟨-, hbench⟩ := step_moves_script h
  by_cases hp : s.ph = .idle
  · have hb : s.bench.isSome = true := hw.resolve_left (not_not_intro hp)
    have hbench' : t.bench = none := by simpa [benchAfter, hr, busy, hp] using hbench
    simp [blockLeft, cyclesLeft_of_idle (step_of_request_stays_idle hr hp hb h), cyclesLeft_of_idle hp, hbench', hb]
  · have hbench' : t.bench = s.bench := by simpa [benchAfter, busy, hp] using hbench
    have hleft := step_cyclesLeft_of_rst_low hs hr hp h
    rw [blockLeft, blockLeft, hbench']
    omega

end Left

/-! ## The end of a run (R247) -/

/-- From any state whose hold counter is in range, the run ends. -/
theorem runCycles_reaches_runEnded (s : State) (hs : HoldCounted s) : ∃ n t, runCycles n s = .next t ∧ runEnded t := by
  by_cases he : runEnded s
  · exact ⟨0, s, rfl, he⟩
  · obtain ⟨t, ht⟩ := step_answers s
    have hless : Prod.Lex (· < ·) (· < ·) (hostLeft t, blockLeft t) (hostLeft s, blockLeft s) := by
      rcases step_hostLeft ht he with hhost | ⟨hhost, hr, hw⟩
      · exact .left _ _ hhost
      · rw [hhost]
        exact .right _ (step_blockLeft hs hr hw ht)
    obtain ⟨n, u, hrun, hu⟩ := runCycles_reaches_runEnded t (stepKeepsTheHoldCounter s t hs ht)
    exact ⟨n + 1, u, (runCycles_succ_of_step ht n).trans hrun, hu⟩
termination_by (hostLeft s, blockLeft s)
decreasing_by exact hless

/-- Settles O46: every cycle makes what is left of the run less, a kept command and a reset included. -/
theorem everyScriptEndsInIdle : Obligations.EveryScriptEndsInIdle := by
  unfold Obligations.EveryScriptEndsInIdle
  exact runCycles_reaches_runEnded

end Sys2Proof.Machine
